-- ==== Sys2Proof/Word.lean ====
section
/-! DEFINITION. The two word types of the block: a register and a command code. -/

namespace Sys2Proof

/-- An unsigned 8-bit value, 0 to 255, with wraparound arithmetic (10_state.md R14, 00_scope.md R8, R9).
`+` and `-` of `BitVec 8` are `+8` and `-8`, `^^^` is the bitwise exclusive or, `<` is the unsigned
comparison, and `v >>> k` with `k : Nat` is `floor (v / 2^k)` for every `k`, 0 from `k = 8` on. -/
abbrev Byte := BitVec 8

/-- What the input `cmd[1:0]` carries in one issue (30_encoding.md R35, R36). -/
abbrev Code := BitVec 2

end Sys2Proof
end

