-- ==== Sys2Proof/Config.lean ====
section
/-! DEFINITION. What is fixed at build: the four tuning constants (00_scope.md R5, R6) and the open latency. -/

namespace Sys2Proof

/-- The tuning constants, with the ranges of 00_scope.md R6 and the defaults of R5. They are configuration, not
state: no register holds them and no command writes them (10_state.md R12, R20). Only `Config.hardware` is this
hardware; behaviour at other values is the spec's extrapolation (92_eei_decisions.md D11, D12; log entry 7). -/
structure Config where
  /-- `VAR`, the wind variability threshold. -/
  var : Byte := 5
  /-- `BASE`, the wind baseline. -/
  base : Byte := 30
  /-- `CALM`, the calmness shift, a natural number. -/
  calm : Nat := 2
  /-- `AGILITY`, the flame inertia step. -/
  agility : Byte := 2
  deriving DecidableEq, Repr

/-- The values this hardware takes (00_scope.md R5). -/
def Config.hardware : Config := { var := 5, base := 30, calm := 2, agility := 2 }

/-- `T_CMD`, the latency of one command: open in the spec, and no rule reads it (70_reset_and_hazards.md R88,
93_implementation_defined.md U4; log entry 8). No definition of the model reads it either. -/
opaque Config.tCmd : Nat

end Sys2Proof
end

