-- ==== Sys2Proof/Syntax.lean ====
section
/-! DEFINITION. The commands of the block, one constructor per row of spec/opcode_table.json. -/

namespace Sys2Proof

/-- The commands (30_encoding.md R38). None has an operand, a register field or an immediate (R37). DRAW,
WIND_UPDATE, FLAME_UPDATE and FILTER_UPDATE are micro-operations of STEP, not commands (40_entropy.md R44). -/
inductive Instr where
  /-- `NOP`, 44_commands.md R66. -/
  | nop
  /-- `STEP`, 44_commands.md R62. -/
  | step
  /-- `INIT`, 44_commands.md R65. -/
  | init
  deriving DecidableEq, Repr

end Sys2Proof
end

