-- ==== Sys2Proof/WellFormed.lean ====
section
/-! DEFINITION. Well-formedness of commands, of the codes that carry them, and of streams of codes. -/

namespace Sys2Proof

/-- A command has no operand, so no command term can be ill-formed (30_encoding.md R37); one line per
constructor, so that a constructor with an operand could not slip past. -/
def Instr.wellFormed (i : Instr) : Bool :=
  match i with
  | .nop => true
  | .step => true
  | .init => true

/-- A host must never issue the reserved code `0b11` (30_encoding.md R39, 70_reset_and_hazards.md R86 item 2). -/
def codeWellFormed (code : Code) : Bool := code != 0b11#2

/-- A stream of codes in which every code is well-formed. -/
def streamWellFormed (codes : List Code) : Bool := codes.all codeWellFormed

end Sys2Proof
end

