-- ==== Sys2Proof/Decode.lean ====
section
/-! DEFINITION. The decoder of `cmd[1:0]`, total on every code and rejecting the reserved one by name, and the
encoder (30_encoding.md R36 to R40). -/

namespace Sys2Proof

/-- Why a code is no command. -/
inductive DecodeError where
  /-- `0b11`, reserved: it has no meaning (30_encoding.md R39). -/
  | reservedCode
  deriving DecidableEq, Repr

/-- One row of the opcode map: a code matches it if it agrees with `pattern` on the bits of `mask`. -/
structure OpcodeRow where
  pattern : Code
  mask : Code
  /-- The command, or none for the reserved row. -/
  meaning : Option Instr
  deriving DecidableEq, Repr

/-- The opcode map of 30_encoding.md R38. -/
def opcodeMap : List OpcodeRow :=
  [ { pattern := 0b00#2, mask := 0b11#2, meaning := some .nop },
    { pattern := 0b01#2, mask := 0b11#2, meaning := some .step },
    { pattern := 0b10#2, mask := 0b11#2, meaning := some .init },
    { pattern := 0b11#2, mask := 0b11#2, meaning := none } ]

/-- Does a code match a row (30_encoding.md R38)? -/
def OpcodeRow.fits (row : OpcodeRow) (code : Code) : Bool := code &&& row.mask == row.pattern

/-- The command a code stands for. No mode bit and no earlier code changes the answer (30_encoding.md R40). -/
def decode (code : Code) : Except DecodeError Instr :=
  match opcodeMap.find? (fun row => row.fits code) with
  | some row =>
    match row.meaning with
    | some i => .ok i
    | none => .error .reservedCode
  | none => .error .reservedCode

/-- The code of a command (30_encoding.md R38). -/
def encode (i : Instr) : Code :=
  match i with
  | .nop => 0b00#2
  | .step => 0b01#2
  | .init => 0b10#2

/-- The code that a word of spec/opcode_table.json puts on `cmd[1:0]`: its bits 1 and 0, bits from `nbits` up
being 0. Any further bit of the word reaches no pin: the command is the 2-bit code and no other field
(30_encoding.md R36, R38; log entry 9). -/
def tableCode (nbits w : Nat) : Code := BitVec.ofNat 2 (w % 2 ^ nbits)

/-- The command read from a word numbered as the opcode table numbers it. -/
def decodeTableWord (nbits w : Nat) : Option Instr :=
  match decode (tableCode nbits w) with
  | .ok i => some i
  | .error _ => none

end Sys2Proof
end

