-- ==== Sys2Proof/Machine/State.lean ====
section
/-! DEFINITION. The state block, what the host may do to it, the reasons a step can stop, and reset. -/

namespace Sys2Proof.Machine

/-- The architectural state: exactly seven 8-bit registers (10_state.md R12, R13), in the spec's canonical order.
They are named, not addressed (20_memory.md R25), and the order is notation, not a packing (R26). -/
structure Block where
  /-- Entropy counter: counts draws modulo 256 (90_conflicts.md C9). -/
  x : Byte
  /-- Mixing accumulator of the generator. -/
  a : Byte
  /-- Mixing accumulator of the generator. -/
  b : Byte
  /-- Mixing accumulator of the generator, and the value each draw yields. -/
  c : Byte
  /-- Current wind strength. -/
  wind : Byte
  /-- Unfiltered flame height. -/
  flame : Byte
  /-- Filtered flame height: the brightness shown on `out`. -/
  flameprime : Byte
  deriving DecidableEq, Repr

/-- The zero state: every register 0 (10_state.md R23). -/
def Block.zero : Block :=
  { x := 0, a := 0, b := 0, c := 0, wind := 0, flame := 0, flameprime := 0 }

/-- What can reach the block from outside (30_encoding.md R35), one event at a time (20_memory.md R31). -/
inductive HostEvent where
  /-- The host issues one code on `cmd` and lets the command complete (30_encoding.md R36). -/
  | command (code : Code)
  /-- The host issues `second` while the command `first` is still in progress (20_memory.md R32; log entry 4). -/
  | overlap (first second : Code)
  /-- Power-on reset, which also ends a loss of power between two commands (70_reset_and_hazards.md R82,
  60_exceptions.md R81; log entry 5). -/
  | powerOn
  /-- Power is lost while the command `during` is in progress (93_implementation_defined.md U8; log entry 5). -/
  | powerLoss (during : Code)
  deriving DecidableEq, Repr

/-- The machine: the state block, and the MODEL'S OWN field `pending`, what the host has still to do to it, the
next event first. The block holds no program and no program counter: the order of commands is the host's
(10_state.md R18, 20_memory.md R34; log entry 1). -/
structure State where
  block : Block
  pending : List HostEvent
  deriving DecidableEq, Repr

/-- Why the machine stops with a fault. Neither is a behaviour of the block: each stands where the spec gives no
successor state (60_exceptions.md R75), so stopping is safe: no claim about what follows can be proved. -/
inductive Fault where
  /-- Raised by the event `overlap`: two commands to one block overlap, a data race (20_memory.md R32, 60_exceptions.md
  R75 item 2, 93_implementation_defined.md U1). Safe. -/
  | overlappingCommands
  /-- Raised by the event `powerLoss`: the interrupted command has no successor state
  (93_implementation_defined.md U8, treatment `stuck`). Raised for the reserved code too (log entry 5). Safe. -/
  | powerLostDuringCommand
  deriving DecidableEq, Repr

/-- Why the machine gives an input no meaning. -/
inductive Refusal where
  /-- Raised by an arm of `exec` whose command has no meaning yet. No arm raises it. Safe. -/
  | notModelled (mnemonic : String)
  /-- Raised when the host issues the reserved code `0b11` (30_encoding.md R39, 60_exceptions.md R75 item 1). The outcome
  itself is the spec's refusal mark: the run ends with it and nothing clears it (log entry 3). Safe. -/
  | reservedCommand
  deriving DecidableEq, Repr

/-- After power-on reset: the zero state (10_state.md R23, 70_reset_and_hazards.md R82), and the host has done nothing
yet (R84; log entry 1). -/
def State.reset : State := { block := Block.zero, pending := [] }

end Sys2Proof.Machine
end

