-- ==== Sys2Proof/Machine/Ops.lean ====
section
/-! DEFINITION. The named operations over the registers: every read is a field of `Block`, every write one of these,
each of a whole 8-bit register (20_memory.md R28). There is no memory (20_memory.md R25), and no exception is taken or
returned from (60_exceptions.md R70, R73, R74), so there is no operation for either. -/

namespace Sys2Proof.Machine

/-- Writes the four generator registers: the Entropy Source alone does (10_state.md R15). -/
def Block.setGenerator (S : Block) (x a b c : Byte) : Block := { S with x := x, a := a, b := b, c := c }

/-- Writes `wind`: the Wind Model alone does (10_state.md R15). -/
def Block.setWind (S : Block) (v : Byte) : Block := { S with wind := v }

/-- Writes `flame`: the Flame Model alone does (10_state.md R15). -/
def Block.setFlame (S : Block) (v : Byte) : Block := { S with flame := v }

/-- Writes `flameprime`: the Inertia Filter alone does (10_state.md R15). -/
def Block.setFlameprime (S : Block) (v : Byte) : Block := { S with flameprime := v }

/-- Writes 0 to all seven registers: what power-on reset and INIT do, and nothing does to a part of them
(70_reset_and_hazards.md R82, R83, 44_commands.md R65). -/
def Block.clear (S : Block) : Block :=
  (((S.setGenerator 0 0 0 0).setWind 0).setFlame 0).setFlameprime 0

/-- The output port `out[7:0]`: always the whole of `flameprime` (30_encoding.md R35, 20_memory.md R28), and all
the host observes (10_state.md R16, R22). It is computed, not stored (log entry 10), so observing it changes nothing. -/
def State.out (s : State) : Byte := s.block.flameprime

/-- Replaces the state block, leaving what the host has still to do. -/
def State.setBlock (s : State) (S : Block) : State := { s with block := S }

/-- Replaces what the host has still to do, leaving the state block. -/
def State.setPending (s : State) (events : List HostEvent) : State := { s with pending := events }

end Sys2Proof.Machine
end

