-- ==== Sys2Proof/Machine/Operands.lean ====
section
/-! DEFINITION. What the micro-operations read beside the registers. A command has no operand (30_encoding.md R37): these
are the numbers every configuration keeps (00_scope.md R7) and the two values computed from a tuning constant. -/

namespace Sys2Proof.Machine

/-- The Entropy Source's shift of 1 bit (00_scope.md R7). -/
abbrev generatorShift : Nat := 1

/-- The gust gate of `r2 > 220` (00_scope.md R7). -/
abbrev gustGate : Byte := 220

/-- The wind relaxation step (00_scope.md R7). -/
abbrev relaxationStep : Byte := 1

/-- The flame growth step (00_scope.md R7). -/
abbrev growthStep : Byte := 1

/-- The flame ceiling (00_scope.md R7). -/
abbrev flameCeiling : Byte := 255

/-- The filter ceiling (00_scope.md R7). -/
abbrev filterCeiling : Nat := 255

/-- The collapse threshold `wind >> CALM`, `floor (wind / 2^CALM)` (42_flame.md R56, 00_scope.md R6, R9). -/
def collapseThreshold (p : Config) (wind : Byte) : Byte := wind >>> p.calm

/-- `255 - AGILITY`, an integer subtraction in 0 to 255 that never wraps (00_scope.md R9, 92_eei_decisions.md D12). -/
def riseLimit (p : Config) : Nat := filterCeiling - p.agility.toNat

end Sys2Proof.Machine
end

