-- ==== Sys2Proof/Machine/Flags.lean ====
section
/-! DEFINITION. The comparisons that decide which writes a command makes. The block has no flag, condition code or
predicate register: the result of a comparison is stored nowhere and no later command reads it (10_state.md R19). -/

namespace Sys2Proof.Machine

/-- `r1 < VAR` (41_wind.md R48 step 1). -/
abbrev gustEligible (p : Config) (r1 : Byte) : Prop := r1 < p.var

/-- `r2 > 220` (41_wind.md R48 step 2). -/
abbrev passesGustGate (r2 : Byte) : Prop := r2 > gustGate

/-- `S.wind > BASE` (41_wind.md R48 step 3). -/
abbrev aboveBaseline (p : Config) (S : Block) : Prop := S.wind > p.base

/-- `S.flame < 255` (42_flame.md R53 step 1). -/
abbrev canGrow (S : Block) : Prop := S.flame < flameCeiling

/-- `r < (S.wind >> CALM)`, strictly (42_flame.md R53 step 2). -/
abbrev knocksDown (p : Config) (S : Block) (r : Byte) : Prop := r < collapseThreshold p S.wind

/-- `S.flame > S.flameprime`; equality is the other branch (43_filter.md R58, R59). -/
abbrev flameAboveOutput (S : Block) : Prop := S.flame > S.flameprime

/-- `S.flameprime < 255 - AGILITY` (43_filter.md R58). -/
abbrev mayRise (p : Config) (S : Block) : Prop := S.flameprime.toNat < riseLimit p

/-- `S.flameprime > AGILITY` (43_filter.md R58). -/
abbrev mayFall (p : Config) (S : Block) : Prop := S.flameprime > p.agility

end Sys2Proof.Machine
end

