-- ==== Sys2Proof/Machine/Filter.lean ====
section
/-! DEFINITION. The Inertia Filter: the micro-operation FILTER_UPDATE (43_filter.md). -/

namespace Sys2Proof.Machine

/-- `FILTER_UPDATE()` (43_filter.md R58). Equality takes the else branch (R59, 90_conflicts.md C2), and the upper guard
is `flameprime < 255 - AGILITY` (90_conflicts.md C3). -/
def filterUpdate (p : Config) (S : Block) : Block :=
  if flameAboveOutput S then
    if mayRise p S then S.setFlameprime (S.flameprime + p.agility) else S
  else
    if mayFall p S then S.setFlameprime (S.flameprime - p.agility) else S

end Sys2Proof.Machine
end

