-- ==== Sys2Proof/Machine/Entropy.lean ====
section
/-! DEFINITION. The Entropy Source: the micro-operation DRAW (40_entropy.md). -/

namespace Sys2Proof.Machine

/-- `DRAW()` (40_entropy.md R43). The value it yields is the new `c`, so `r <- DRAW()` is written
`let S' := draw S` and `r` is `S'.c`. -/
def draw (S : Block) : Block :=
  let x := S.x + 1
  let a := S.a ^^^ S.c ^^^ x
  let b := S.b + a
  let c := (S.c + (b >>> generatorShift)) ^^^ a
  S.setGenerator x a b c

/-- `n` draws, one after the other. -/
def drawTimes : Nat → Block → Block
  | 0, S => S
  | n + 1, S => drawTimes n (draw S)

/-- The state before a draw, recovered from the state after it (40_entropy.md R46 item 2). No command runs it: it is
what the spec says of DRAW, written down for claims. -/
def undraw (S : Block) : Block :=
  let c := (S.c ^^^ S.a) - (S.b >>> generatorShift)
  let b := S.b - S.a
  let x := S.x - 1
  let a := S.a ^^^ c ^^^ S.x
  S.setGenerator x a b c

end Sys2Proof.Machine
end

