-- ==== Sys2Proof/Machine/Flame.lean ====
section
/-! DEFINITION. The Flame Model: the micro-operation FLAME_UPDATE (42_flame.md). -/

namespace Sys2Proof.Machine

/-- Step 1 of FLAME_UPDATE: growth by 1, saturating at 255 (42_flame.md R53). -/
def grow (S : Block) : Block :=
  if canGrow S then S.setFlame (S.flame + growthStep) else S

/-- Step 2 of FLAME_UPDATE: draw `r`, always; below the threshold, a further draw becomes `flame` (42_flame.md R53).
DRAW does not write `wind`, so the threshold may be read after it (R54). -/
def collapse (p : Config) (S : Block) : Block :=
  let S1 := draw S
  if knocksDown p S1 S1.c then
    let S2 := draw S1
    S2.setFlame S2.c
  else S1

/-- `FLAME_UPDATE()` (42_flame.md R53): growth, then collapse. -/
def flameUpdate (p : Config) (S : Block) : Block := collapse p (grow S)

end Sys2Proof.Machine
end

