-- ==== Sys2Proof/Machine/Wind.lean ====
section
/-! DEFINITION. The Wind Model: the micro-operation WIND_UPDATE (41_wind.md). -/

namespace Sys2Proof.Machine

/-- Steps 1 and 2 of WIND_UPDATE: draw `r1`; if it is below `VAR` draw `r2`; if that is above 220 a third draw
becomes `wind`, a gust (41_wind.md R48). A draw whose condition fails does not happen (00_scope.md R11). -/
def drawGust (p : Config) (S : Block) : Block :=
  let S1 := draw S
  if gustEligible p S1.c then
    let S2 := draw S1
    if passesGustGate S2.c then
      let S3 := draw S2
      S3.setWind S3.c
    else S2
  else S1

/-- Step 3 of WIND_UPDATE: `wind` above `BASE` falls by 1, in every STEP, a gust's own included (41_wind.md R48, R51). -/
def relax (p : Config) (S : Block) : Block :=
  if aboveBaseline p S then S.setWind (S.wind - relaxationStep) else S

/-- `WIND_UPDATE()` (41_wind.md R48). -/
def windUpdate (p : Config) (S : Block) : Block := relax p (drawGust p S)

end Sys2Proof.Machine
end

