-- ==== Sys2Proof/Machine/Commands.lean ====
section
/-! DEFINITION. The meanings of the host commands (44_commands.md). Each is one atomic transition (20_memory.md R29). -/

namespace Sys2Proof.Machine

/-- `STEP()` on the state block: the three micro-operations, each seeing the writes of the one before, and no draw
besides theirs (44_commands.md R62, R63). -/
def stepBlock (p : Config) (S : Block) : Block := filterUpdate p (flameUpdate p (windUpdate p S))

/-- NOP: no register is written (44_commands.md R66). -/
def execNop (s : State) : Host.Outcome State Fault Refusal := .next s

/-- STEP (44_commands.md R62). The value it returns is `out` afterwards. -/
def execStep (s : State) : Host.Outcome State Fault Refusal :=
  .next (s.setBlock (stepBlock Config.hardware s.block))

/-- INIT: all seven registers to 0, with no draw (44_commands.md R65). -/
def execInit (s : State) : Host.Outcome State Fault Refusal := .next (s.setBlock s.block.clear)

end Sys2Proof.Machine
end

