-- ==== Sys2Proof/Machine/HostInput.lean ====
section
/-! DEFINITION. What one event from outside does to the block, and how the next one is taken. -/

namespace Sys2Proof.Machine

/-- One issue of `cmd`: the command the code stands for is performed; the reserved code is refused, with no
transition (30_encoding.md R36, R39). -/
def issue (code : Code) (s : State) : Host.Outcome State Fault Refusal :=
  match decode code with
  | .ok i => exec i s
  | .error .reservedCode => .refused .reservedCommand

/-- Power-on reset: every register at its reset value (70_reset_and_hazards.md R82). What the host does
afterwards is the rest of its stream. -/
def powerOnReset (s : State) : State := s.setBlock s.block.clear

/-- The effect of one event (20_memory.md R32, 70_reset_and_hazards.md R82, 93_implementation_defined.md U1, U8).
DESIGN CHOICE: an overlap, or a loss of power, is its fault whatever the code, the reserved `0b11` included, for which the
spec does not say whether the refusal of 30_encoding.md R39 or the stop comes first (log entries 4 and 5). Safe. -/
def perform (e : HostEvent) (s : State) : Host.Outcome State Fault Refusal :=
  match e with
  | .command code => issue code s
  | .overlap _ _ => .fault .overlappingCommands
  | .powerOn => .next (powerOnReset s)
  | .powerLoss _ => .fault .powerLostDuringCommand

/-- Takes the next event, strictly in the order the host issued them (20_memory.md R31). With none left the block
does nothing (70_reset_and_hazards.md R84; log entry 2). -/
def takeNext (s : State) : Host.Outcome State Fault Refusal :=
  match s.pending with
  | [] => .next s
  | e :: rest => perform e (s.setPending rest)

/-- The host issues `code` next, before anything else it has still to do. -/
def issueNext (code : Code) (s : State) : State := s.setPending (.command code :: s.pending)

end Sys2Proof.Machine
end

