-- ==== Sys2Proof/Machine/Step.lean ====
section
/-! DEFINITION. One step of the machine: the next event from outside, whole (20_memory.md R29, R31). -/

namespace Sys2Proof.Machine

/-- One step: one event is taken and performed as one atomic transition. -/
def step (s : State) : Host.Outcome State Fault Refusal := takeNext s

/-- The block fetches nothing (20_memory.md R34): its next command is the one the host issues next. So this puts the
word's code at the head of what the host has still to do (log entries 1 and 9). -/
def State.withFetchWord (s : State) (nbits w : Nat) : State := issueNext (tableCode nbits w) s

end Sys2Proof.Machine
end

