-- ==== Sys2Proof/Machine/Assembly.lean ====
section
/-! DEFINITION. The two notations of a command stream: its text and its listing (30_encoding.md R41, R42). Both are the
host's: the block sees only codes. A text is a list of characters. What the rules leave open is log entry 12. -/

namespace Sys2Proof.Machine

/-- A space, a tab or a carriage return: what may stand around and between the words of a line. -/
def isBlank (ch : Char) : Bool := ch == ' ' || ch == '\t' || ch == '\r'

/-- The lines of a text. -/
def lines : List Char → List (List Char)
  | [] => [[]]
  | ch :: rest =>
    if ch == '\n' then [] :: lines rest
    else
      match lines rest with
      | [] => [[ch]]
      | l :: ls => (ch :: l) :: ls

/-- A line without its comment: a `;` starts one that runs to the end of the line (30_encoding.md R41). -/
def withoutComment (line : List Char) : List Char := line.takeWhile (fun ch => ch != ';')

/-- The words of a line; `word` holds what of the current word has been read. -/
def wordsFrom (word : List Char) : List Char → List (List Char)
  | [] => if word.isEmpty then [] else [word]
  | ch :: rest =>
    if isBlank ch then
      if word.isEmpty then wordsFrom [] rest else word :: wordsFrom [] rest
    else wordsFrom (word ++ [ch]) rest

/-- The value of a decimal digit. -/
def digitValue (ch : Char) : Option Nat :=
  if '0' ≤ ch ∧ ch ≤ '9' then some (ch.toNat - '0'.toNat) else none

/-- Reads on through decimal digits, `n` being the value so far. -/
def decimalFrom (n : Nat) : List Char → Option Nat
  | [] => some n
  | ch :: rest =>
    match digitValue ch with
    | some d => decimalFrom (10 * n + d) rest
    | none => none

/-- A decimal natural number: one digit or more (30_encoding.md R42). -/
def decimal (word : List Char) : Option Nat :=
  if word.isEmpty then none else decimalFrom 0 word

/-- The mnemonic of a command, in capitals (30_encoding.md R41). -/
def mnemonic (i : Instr) : List Char :=
  match i with
  | .nop => ['N', 'O', 'P']
  | .step => ['S', 'T', 'E', 'P']
  | .init => ['I', 'N', 'I', 'T']

/-- The name of the one pseudo-instruction (30_encoding.md R42). -/
def stepsName : List Char := ['S', 'T', 'E', 'P', 'S']

/-- The commands the words of a line stand for: none for a blank line, one for a mnemonic, `n` STEPs for `STEPS n`.
Any other line is not assembled (30_encoding.md R41, R42). -/
def assembleWords (words : List (List Char)) : Option (List Instr) :=
  match words with
  | [] => some []
  | [word] =>
    if word = mnemonic .nop then some [.nop]
    else if word = mnemonic .step then some [.step]
    else if word = mnemonic .init then some [.init]
    else none
  | [word, count] =>
    if word = stepsName then (decimal count).map (fun n => List.replicate n .step) else none
  | _ :: _ :: _ :: _ => none

/-- One line. Mnemonics are case-insensitive (30_encoding.md R41). -/
def assembleLine (line : List Char) : Option (List Instr) :=
  assembleWords (wordsFrom [] (withoutComment (line.map Char.toUpper)))

/-- The lines of a text, in order; a text with a line that is not assembled is not assembled. -/
def assembleLines : List (List Char) → Option (List Instr)
  | [] => some []
  | line :: rest =>
    match assembleLine line, assembleLines rest with
    | some is, some more => some (is ++ more)
    | _, _ => none

/-- The commands of a text, in issue order (30_encoding.md R41, R42). -/
def assemble (text : List Char) : Option (List Instr) := assembleLines (lines text)

/-- A command stream as text, one command a line (30_encoding.md R41). -/
def render : List Instr → List Char
  | [] => []
  | i :: rest => mnemonic i ++ '\n' :: render rest

/-- What the host does to issue a command stream: one event a command. -/
def issues (is : List Instr) : List HostEvent := is.map (fun i => .command (encode i))

/-- The hexadecimal digit of a code: `0` NOP, `1` STEP, `2` INIT, `3` reserved (30_encoding.md R41,
92_eei_decisions.md D22). -/
def codeDigit (code : Code) : Char :=
  if code = 0b00#2 then '0' else if code = 0b01#2 then '1' else if code = 0b10#2 then '2' else '3'

/-- The listing of a stream of codes: its digits in issue order, a space between two, as in `2 1 1 1`
(30_encoding.md R41). -/
def listing : List Code → List Char
  | [] => []
  | [code] => [codeDigit code]
  | code :: next :: rest => codeDigit code :: ' ' :: listing (next :: rest)

/-- The code a word of a listing stands for. -/
def digitCode (word : List Char) : Option Code :=
  if word = ['0'] then some 0b00#2
  else if word = ['1'] then some 0b01#2
  else if word = ['2'] then some 0b10#2
  else if word = ['3'] then some 0b11#2
  else none

/-- Reads the words of a listing. -/
def readDigits : List (List Char) → Option (List Code)
  | [] => some []
  | word :: rest =>
    match digitCode word, readDigits rest with
    | some code, some more => some (code :: more)
    | _, _ => none

/-- Reads a listing (30_encoding.md R41). -/
def readListing (text : List Char) : Option (List Code) := readDigits (wordsFrom [] text)

end Sys2Proof.Machine
end

