-- ==== Sys2Proof/Machine/DrawCount.lean ====
section
/-! DEFINITION. How many draws a command makes (41_wind.md R49, 42_flame.md R55, 44_commands.md R64). The block keeps no
such count (60_exceptions.md R77) and the host cannot observe it (10_state.md R22): no step reads these. -/

namespace Sys2Proof.Machine

/-- The draws of one WIND_UPDATE (41_wind.md R49). -/
def windDrawCount (p : Config) (S : Block) : Nat :=
  if gustEligible p (draw S).c then
    if passesGustGate (draw (draw S)).c then 3 else 2
  else 1

/-- The draws of one FLAME_UPDATE, from the block as WIND_UPDATE left it (42_flame.md R55). -/
def flameDrawCount (p : Config) (S : Block) : Nat :=
  if knocksDown p S (draw S).c then 2 else 1

/-- The draws of one STEP (44_commands.md R64). -/
def stepDrawCount (p : Config) (S : Block) : Nat :=
  windDrawCount p S + flameDrawCount p (windUpdate p S)

/-- The draws since the last reset once `i` has been performed, given those before it (40_entropy.md R46 item 1). -/
def countAfterCommand (i : Instr) (S : Block) (n : Nat) : Nat :=
  match i with
  | .nop => n
  | .step => n + stepDrawCount Config.hardware S
  | .init => 0

/-- The same for one event: both ways to reset start the count again (70_reset_and_hazards.md R83). -/
def countAfterEvent (e : HostEvent) (S : Block) (n : Nat) : Nat :=
  match e with
  | .command code =>
    match decode code with
    | .ok i => countAfterCommand i S n
    | .error _ => n
  | .overlap _ _ => n
  | .powerOn => 0
  | .powerLoss _ => n

/-- The draws since the last reset after a stream of events, given those before it. -/
def drawsSinceReset : List HostEvent → Block → Nat → Nat
  | [], _, n => n
  | e :: rest, S, n =>
    match perform e { block := S, pending := [] } with
    | .next t => drawsSinceReset rest t.block (countAfterEvent e S n)
    | .fault _ => n
    | .refused _ => n

end Sys2Proof.Machine
end

