-- ==== Sys2Proof/Machine/Observe.lean ====
section
/-! DEFINITION. What a stream of events leaves behind, and what the host sees of it (10_state.md R22, 44_commands.md R67,
R68). -/

namespace Sys2Proof.Machine

/-- The block `S` with a stream of events still to come. -/
def State.awaiting (S : Block) (events : List HostEvent) : State := { block := S, pending := events }

/-- `k` steps of the machine, stopping at the first fault or refusal. -/
def run (k : Nat) (s : State) : Host.Outcome State Fault Refusal := Host.Core.run Sys2Proof.core k s

/-- The state block after a whole stream of events, or none where the stream has no final state: a run ends after its
last command, and one with a reserved code, an overlap or a command cut off by a loss of power has none (44_commands.md R68,
92_eei_decisions.md D21). -/
def finalBlock (events : List HostEvent) (S : Block) : Option Block :=
  match run events.length (State.awaiting S events) with
  | .next t => some t.block
  | .fault _ => none
  | .refused _ => none

/-- What `out` shows after each of the next `k` steps, up to the first stop: all the host can observe
(10_state.md R16, R22, 92_eei_decisions.md D19). -/
def outsAfter : Nat → State → List Byte
  | 0, _ => []
  | k + 1, s =>
    match step s with
    | .next t => t.out :: outsAfter k t
    | .fault _ => []
    | .refused _ => []

end Sys2Proof.Machine
end

