-- ==== Sys2Proof/Safety.lean ====
section
/-! DEFINITION. What counts as a safe run: the host's duties, and what holds of the state block in every state a run
reaches. -/

namespace Sys2Proof.Machine

/-- Does an event keep the host's duties (70_reset_and_hazards.md R86) and come with power kept on? -/
def HostEvent.obeysDuties (e : HostEvent) : Bool :=
  match e with
  | .command code => codeWellFormed code
  | .overlap _ _ => false
  | .powerOn => true
  | .powerLoss _ => false

/-- "No refusal and no fault" ahead: the premise of a claim about a stream (60_exceptions.md R75). -/
def dutiful (events : List HostEvent) : Bool := events.all HostEvent.obeysDuties

/-- An outcome that is a next state. -/
def goesOn (o : Host.Outcome State Fault Refusal) : Bool :=
  match o with
  | .next _ => true
  | .fault _ => false
  | .refused _ => false

/-- What holds of the block in every reachable state (10_state.md R24 items 2 and 3, with the zero state and the states
after INIT being the same block): the output is even, and 0 only in the zero state; `wind` is never 255; and `flame`
is 0 only where the last draw was 0 (R24 item 4). -/
structure Block.Reachable (S : Block) : Prop where
  even_output : S.flameprime.toNat % 2 = 0
  zero_output : S.flameprime = 0 → S = Block.zero
  wind_below_255 : S.wind ≠ 255
  flame_zero : S.flame = 0 → S.c = 0

end Sys2Proof.Machine
end

