-- ==== Sys2Proof/Certificates/Slice0/Obligations.lean ====
section
/-! DEFINITION. The statements for the provers, and first the vocabulary they share: the rules' own arithmetic on
natural numbers (00_scope.md R9), which the block's words must agree with. -/

namespace Sys2Proof.Machine

/-- A state block as the tuple of natural numbers in which the spec writes it (10_state.md R13). -/
structure Tuple where
  x : Nat
  a : Nat
  b : Nat
  c : Nat
  wind : Nat
  flame : Nat
  flameprime : Nat
  deriving DecidableEq, Repr

/-- The registers read as natural numbers in 0 to 255. -/
def Block.tuple (S : Block) : Tuple :=
  { x := S.x.toNat, a := S.a.toNat, b := S.b.toNat, c := S.c.toNat, wind := S.wind.toNat, flame := S.flame.toNat,
    flameprime := S.flameprime.toNat }

/-- DRAW in the arithmetic of 00_scope.md R9: sums modulo 256, and a right shift as a quotient (40_entropy.md R43). -/
def Tuple.draw (T : Tuple) : Tuple :=
  let x := (T.x + 1) % 256
  let a := T.a ^^^ T.c ^^^ x
  let b := (T.b + a) % 256
  let c := ((T.c + b / 2) % 256) ^^^ a
  { T with x := x, a := a, b := b, c := c }

/-- WIND_UPDATE in the arithmetic of 00_scope.md R9 (41_wind.md R48). The decrement is of natural numbers: its guard
keeps it from wrapping. -/
def Tuple.windUpdate (p : Config) (T : Tuple) : Tuple :=
  let T1 := T.draw
  let G :=
    if T1.c < p.var.toNat then
      let T2 := T1.draw
      if T2.c > 220 then
        let T3 := T2.draw
        { T3 with wind := T3.c }
      else T2
    else T1
  if G.wind > p.base.toNat then { G with wind := G.wind - 1 } else G

/-- FLAME_UPDATE in the arithmetic of 00_scope.md R9 (42_flame.md R53). The growth is of natural numbers: its guard
keeps it from wrapping. -/
def Tuple.flameUpdate (p : Config) (T : Tuple) : Tuple :=
  let G := if T.flame < 255 then { T with flame := T.flame + 1 } else T
  let T1 := G.draw
  if T1.c < T1.wind / 2 ^ p.calm then
    let T2 := T1.draw
    { T2 with flame := T2.c }
  else T1

/-- FILTER_UPDATE in the arithmetic of 00_scope.md R9 (43_filter.md R58). Sum and difference are of natural numbers: the
guards keep them from wrapping. -/
def Tuple.filterUpdate (p : Config) (T : Tuple) : Tuple :=
  if T.flame > T.flameprime then
    if T.flameprime < 255 - p.agility.toNat then { T with flameprime := T.flameprime + p.agility.toNat } else T
  else
    if T.flameprime > p.agility.toNat then { T with flameprime := T.flameprime - p.agility.toNat } else T

/-- STEP in the arithmetic of 00_scope.md R9 (44_commands.md R62). -/
def Tuple.step (p : Config) (T : Tuple) : Tuple := ((T.windUpdate p).flameUpdate p).filterUpdate p

/-- Two blocks whose generators agree. -/
abbrev sameGenerator (S T : Block) : Prop := S.x = T.x ∧ S.a = T.a ∧ S.b = T.b ∧ S.c = T.c

/-- The WIND_UPDATE, or the STEP, that starts from `S` gusts: its first draw is below `VAR` and its second above 220. -/
abbrev gusts (p : Config) (S : Block) : Prop := (drawTimes 1 S).c < p.var ∧ (drawTimes 2 S).c > 220

/-- The byte a gust draws: the third draw. -/
def gustValue (S : Block) : Byte := (drawTimes 3 S).c

/-- The FLAME_UPDATE that starts from `S` collapses: its first draw is below `floor (wind / 2^CALM)`. -/
abbrev collapses (p : Config) (S : Block) : Prop := (drawTimes 1 S).c.toNat < S.wind.toNat / 2 ^ p.calm

/-- The byte a collapse draws: the second draw of its FLAME_UPDATE. -/
def collapseValue (S : Block) : Byte := (drawTimes 2 S).c

/-- The block after `n` STEPs in a row. -/
def stepTimes (p : Config) : Nat → Block → Block
  | 0, S => S
  | n + 1, S => stepTimes p n (stepBlock p S)

/-- The value of a row of decimal digits. -/
def digitsValue (digits : List Char) : Nat := digits.foldl (fun n ch => 10 * n + (ch.toNat - 48)) 0

/-- Either way to reset, as the host sees it: power-on reset, or the command INIT (70_reset_and_hazards.md R83). -/
abbrev isReset (e : HostEvent) : Prop := e = .powerOn ∨ e = .command 0b10#2

/-- An event that issues NOP. -/
def isNop (e : HostEvent) : Bool := e == .command 0b00#2

end Sys2Proof.Machine

open Sys2Proof Sys2Proof.Machine

/-! Reset and the interface. -/

/-- 10_state.md R23, 70_reset_and_hazards.md R82: the zero state at reset, and from any state by the power-on event. -/
def Obligations.ResetIsTheZeroState : Prop :=
  State.reset.block.tuple = { x := 0, a := 0, b := 0, c := 0, wind := 0, flame := 0, flameprime := 0 } ∧
  State.reset.out = 0 ∧
  ∀ (s : State), ∃ t, perform .powerOn s = .next t ∧ t.block = State.reset.block ∧ t.out = 0 ∧ t.pending = s.pending

/-- 70_reset_and_hazards.md R83: INIT and power-on reset give the same block, and whatever follows either, from whatever
block, goes as after power-on: the same final block and the same outputs. -/
def Obligations.BothResetsGiveTheSameState : Prop :=
  ∀ (e : HostEvent) (rest : List HostEvent) (S : Block), isReset e →
    finalBlock (e :: rest) S = finalBlock rest State.reset.block ∧
    ∀ k, outsAfter (k + 1) (State.awaiting S (e :: rest)) = 0 :: outsAfter k (State.awaiting State.reset.block rest)

/-- 70_reset_and_hazards.md R84: with no command issued the block does nothing, after a reset and at any other time.
That this is one step of the model is its own choice (log entry 2). -/
def Obligations.IdleBlockDoesNothing : Prop :=
  ∀ (s : State), s.pending = [] → step s = .next s

/-- When the host's next event is a code that decodes to a command, a step is that command's `exec`, with the event
taken off the stream. Log entry 1. -/
def Obligations.StepRunsTheDecodedCommand : Prop :=
  ∀ (s : State) (code : Code) (rest : List HostEvent) (i : Instr),
    s.pending = .command code :: rest → decode code = .ok i → step s = exec i { s with pending := rest }

/-- A word of the opcode table, issued next, runs as its command and leaves what the host has still to do as it was.
Log entries 1 and 9. -/
def Obligations.IssuedWordRunsAsItsCommand : Prop :=
  ∀ (s : State) (nbits w : Nat) (i : Instr), decodeTableWord nbits w = some i →
    step (s.withFetchWord nbits w) = exec i s

/-- 30_encoding.md R38: the codes, that exactly one row of the opcode map matches each, and what each does when issued. -/
def Obligations.OpcodeMapGivesEachCodeItsOneCommand : Prop :=
  (∀ code : Code, ∃ row, opcodeMap.filter (fun r => r.fits code) = [row]) ∧
  (∀ row ∈ opcodeMap, row.mask = 0b11#2) ∧
  decode 0b00#2 = .ok .nop ∧ decode 0b01#2 = .ok .step ∧ decode 0b10#2 = .ok .init ∧
  decode 0b11#2 = .error .reservedCode ∧
  (∀ s : State, perform (.command 0b00#2) s = .next s ∧ perform (.command 0b01#2) s = exec .step s ∧
    perform (.command 0b10#2) s = exec .init s ∧ perform (.command 0b11#2) s = .refused .reservedCommand)

/-- Decoding and encoding agree, in both directions, on every command and every code. -/
def Obligations.DecodeAndEncodeAgree : Prop :=
  ∀ (i : Instr) (code : Code), i.wellFormed = true → (decode code = .ok i ↔ code = encode i)

/-! The Entropy Source. -/

/-- 40_entropy.md R43: DRAW, in the arithmetic of 00_scope.md R9, with nothing but the generator written. The value it
yields is the new `c`. -/
def Obligations.DrawFollowsItsRecurrence : Prop :=
  ∀ (S : Block), (draw S).tuple = S.tuple.draw

/-- 40_entropy.md R46 items 2 and 4: DRAW is a bijection with the stated inverse, and the only generator state whose draw
is the zero one is `(255, 0, 0, 0)`. -/
def Obligations.DrawIsABijection : Prop :=
  (∀ (S : Block), undraw (draw S) = S ∧ draw (undraw S) = S) ∧
  (∀ (S : Block), ((draw S).x = 0 ∧ (draw S).a = 0 ∧ (draw S).b = 0 ∧ (draw S).c = 0) ↔
    (S.x = 255 ∧ S.a = 0 ∧ S.b = 0 ∧ S.c = 0))

/-- 10_state.md R15: which part writes which register. Each micro-operation moves the generator by whole draws only and
leaves the other parts' registers alone, and an event that changes the block at all is STEP, INIT or power-on reset. -/
def Obligations.OnlyTheNamedWriterWritesARegister : Prop :=
  (∀ (S : Block), (draw S).wind = S.wind ∧ (draw S).flame = S.flame ∧ (draw S).flameprime = S.flameprime) ∧
  (∀ (p : Config) (S : Block), (∃ n, sameGenerator (windUpdate p S) (drawTimes n S)) ∧
    (windUpdate p S).flame = S.flame ∧ (windUpdate p S).flameprime = S.flameprime) ∧
  (∀ (p : Config) (S : Block), (∃ n, sameGenerator (flameUpdate p S) (drawTimes n S)) ∧
    (flameUpdate p S).wind = S.wind ∧ (flameUpdate p S).flameprime = S.flameprime) ∧
  (∀ (p : Config) (S : Block), sameGenerator (filterUpdate p S) S ∧
    (filterUpdate p S).wind = S.wind ∧ (filterUpdate p S).flame = S.flame) ∧
  (∀ (e : HostEvent) (s t : State), perform e s = .next t → t.block ≠ s.block →
    e = .command 0b01#2 ∨ e = .command 0b10#2 ∨ e = .powerOn)

/-! The Wind Model. -/

/-- 41_wind.md R48: WIND_UPDATE, in the arithmetic of 00_scope.md R9, with nothing but the generator and `wind` written. -/
def Obligations.WindUpdateFollowsItsRule : Prop :=
  ∀ (p : Config) (S : Block), (windUpdate p S).tuple = S.tuple.windUpdate p

/-- 41_wind.md R49: one draw, two or three, each under its condition and no other. -/
def Obligations.WindUpdateDrawsFollowTheTable : Prop :=
  ∀ (p : Config) (S : Block),
    ((drawTimes 1 S).c ≥ p.var → windDrawCount p S = 1 ∧ sameGenerator (windUpdate p S) (drawTimes 1 S)) ∧
    ((drawTimes 1 S).c < p.var → (drawTimes 2 S).c ≤ 220 →
      windDrawCount p S = 2 ∧ sameGenerator (windUpdate p S) (drawTimes 2 S)) ∧
    ((drawTimes 1 S).c < p.var → (drawTimes 2 S).c > 220 →
      windDrawCount p S = 3 ∧ sameGenerator (windUpdate p S) (drawTimes 3 S))

/-- 41_wind.md R50: a gust replaces `wind`, whatever it was; relaxation only lowers it; and a `wind` at or below `BASE`
stays until the next gust. -/
def Obligations.GustReplacesWindAndRelaxationOnlyLowersIt : Prop :=
  ∀ (p : Config) (S : Block),
    (gusts p S → (windUpdate p S).wind.toNat =
      if (gustValue S).toNat > p.base.toNat then (gustValue S).toNat - 1 else (gustValue S).toNat) ∧
    (¬ gusts p S → (windUpdate p S).wind ≤ S.wind) ∧
    (¬ gusts p S → S.wind ≤ p.base → (windUpdate p S).wind = S.wind) ∧
    (∀ n, (∀ k, k < n → ¬ gusts p (stepTimes p k S)) → S.wind < p.base → (stepTimes p n S).wind = S.wind)

/-- 41_wind.md R51: without a gust `wind` falls by exactly 1 a STEP while above `BASE` and never changes otherwise, so
`n` STEPs without one take it down by `n`, as far as `BASE`; and a gust at `v > BASE` is down at `BASE` after `v - BASE`
STEPs, its own among them, unless another comes first. -/
def Obligations.WindDecaysLinearlyToTheBaseline : Prop :=
  ∀ (p : Config) (S : Block),
    (¬ gusts p S → (stepBlock p S).wind.toNat =
      if S.wind.toNat > p.base.toNat then S.wind.toNat - 1 else S.wind.toNat) ∧
    (∀ n, (∀ k, k < n → ¬ gusts p (stepTimes p k S)) → (stepTimes p n S).wind.toNat =
      if S.wind.toNat > p.base.toNat then max p.base.toNat (S.wind.toNat - n) else S.wind.toNat) ∧
    (gusts p S → gustValue S > p.base →
      (∀ k, 0 < k → k < (gustValue S).toNat - p.base.toNat → ¬ gusts p (stepTimes p k S)) →
      (stepTimes p ((gustValue S).toNat - p.base.toNat) S).wind = p.base)

/-- 41_wind.md R52: the range of `wind` after WIND_UPDATE. -/
def Obligations.WindRangeAfterWindUpdate : Prop :=
  ∀ (p : Config) (S : Block),
    (p.base < 255 → (windUpdate p S).wind ≤ 254) ∧
    (p.base = 255 → (windUpdate p S).wind = if gusts p S then gustValue S else S.wind) ∧
    (S.wind > p.base → ¬ gusts p S → (windUpdate p S).wind ≥ p.base) ∧
    ((windUpdate p S).wind < p.base → S.wind < p.base ∨ (gusts p S ∧ gustValue S < p.base)) ∧
    Config.hardware.base = 30

/-! The Flame Model. -/

/-- 42_flame.md R53: FLAME_UPDATE, in the arithmetic of 00_scope.md R9, with nothing but the generator and `flame`
written. -/
def Obligations.FlameUpdateFollowsItsRule : Prop :=
  ∀ (p : Config) (S : Block), (flameUpdate p S).tuple = S.tuple.flameUpdate p

/-- 42_flame.md R54: the collapse of a STEP is decided by `wind` as WIND_UPDATE of the same STEP left it, and DRAW does
not write `wind`. -/
def Obligations.CollapseReadsTheWindOfTheSameStep : Prop :=
  (∀ (p : Config) (S : Block),
    (collapses p (windUpdate p S) → (stepBlock p S).flame = collapseValue (windUpdate p S)) ∧
    (¬ collapses p (windUpdate p S) →
      (stepBlock p S).flame.toNat = if S.flame.toNat < 255 then S.flame.toNat + 1 else 255)) ∧
  (∀ (S : Block), (draw S).wind = S.wind)

/-- 42_flame.md R55: one draw without a collapse, two with one. -/
def Obligations.FlameUpdateDrawsFollowTheTable : Prop :=
  ∀ (p : Config) (S : Block),
    (¬ collapses p S → flameDrawCount p S = 1 ∧ sameGenerator (flameUpdate p S) (drawTimes 1 S)) ∧
    (collapses p S → flameDrawCount p S = 2 ∧ sameGenerator (flameUpdate p S) (drawTimes 2 S))

/-- 42_flame.md R56, 00_scope.md R6: the threshold is the quotient, 0 for a shift of 8 or more, monotone in `wind`; at the
reference shift it runs from 0 (`wind` 0 to 3) to 63 (252 to 255), 63 is the largest that a STEP reaches, and it is 7 at
the baseline, where exactly the draws 0 to 6 collapse. -/
def Obligations.CollapseThresholdIsTheShiftedWind : Prop :=
  (∀ (p : Config) (wind : Byte), (collapseThreshold p wind).toNat = wind.toNat / 2 ^ p.calm) ∧
  (∀ (p : Config) (wind : Byte), p.calm ≥ 8 → collapseThreshold p wind = 0) ∧
  (∀ (p : Config) (v w : Byte), v ≤ w → collapseThreshold p v ≤ collapseThreshold p w) ∧
  (∀ wind : Byte, collapseThreshold Config.hardware wind = 0 ↔ wind ≤ 3) ∧
  (∀ wind : Byte, collapseThreshold Config.hardware wind = 63 ↔ wind ≥ 252) ∧
  (∀ wind : Byte, collapseThreshold Config.hardware wind ≤ 63) ∧
  (∀ S : Block, (windUpdate Config.hardware S).wind ≤ 254) ∧
  collapseThreshold Config.hardware 254 = 63 ∧ collapseThreshold Config.hardware 30 = 7 ∧
  (∀ S : Block, S.wind = 30 → (collapses Config.hardware S ↔ (drawTimes 1 S).c ≤ 6))

/-- 42_flame.md R57: `flame` is 0 after FLAME_UPDATE only by a collapse that drew 0; without a collapse it grows by 1 up to
255, at any configuration, one STEP or many; at the reference shift there is none with `wind` at most 3. So a run of STEPs
whose collapses all read a `wind` of at most 3, gusts to such a `wind` included, takes `flame` from 0 to 255 in 255 STEPs
and leaves it there; and a run without a gust from such a `wind`, every one before the first gust after reset among
them, is such a run. -/
def Obligations.FlameGrowsUntilKnockedDown : Prop :=
  (∀ (p : Config) (S : Block), (flameUpdate p S).flame ≥ 1 ∨ (collapses p S ∧ collapseValue S = 0)) ∧
  (∀ (p : Config) (S : Block), ¬ collapses p S → (flameUpdate p S).flame.toNat = min 255 (S.flame.toNat + 1)) ∧
  (∀ (p : Config) (S : Block) (n : Nat), (∀ k, k < n → ¬ collapses p (windUpdate p (stepTimes p k S))) →
    (stepTimes p n S).flame.toNat = min 255 (S.flame.toNat + n)) ∧
  (∀ (S : Block), S.wind ≤ 3 → ¬ collapses Config.hardware S) ∧
  (∀ (S : Block) (n : Nat),
    (∀ k, k < n → (windUpdate Config.hardware (stepTimes Config.hardware k S)).wind ≤ 3) →
    (stepTimes Config.hardware n S).flame.toNat = min 255 (S.flame.toNat + n)) ∧
  (∀ (S : Block) (n : Nat), S.wind ≤ 3 → (∀ k, k < n → ¬ gusts Config.hardware (stepTimes Config.hardware k S)) →
    (stepTimes Config.hardware n S).flame.toNat = min 255 (S.flame.toNat + n))

/-! The Inertia Filter. -/

/-- 43_filter.md R58: FILTER_UPDATE, in the arithmetic of 00_scope.md R9, with nothing but `flameprime` written. -/
def Obligations.FilterUpdateFollowsItsRule : Prop :=
  ∀ (p : Config) (S : Block), (filterUpdate p S).tuple = S.tuple.filterUpdate p

/-- 43_filter.md R59: at equality the output steps down, but for the floor case; the alternation: from an equality above
the floor, with `flame` not lower meanwhile, it steps back up on the next FILTER_UPDATE; and the golden prefix this
gives, where STEP 4 meets `flame = flameprime = 4` and steps down to 2. -/
def Obligations.FilterStepsDownAtEquality : Prop :=
  ((List.range 8).map (fun n => (stepTimes Config.hardware (n + 1) Block.zero).flameprime) =
    [2, 2, 4, 2, 4, 6, 8, 6]) ∧
  (flameUpdate Config.hardware (windUpdate Config.hardware (stepTimes Config.hardware 3 Block.zero))).flame = 4 ∧
  (stepTimes Config.hardware 3 Block.zero).flameprime = 4 ∧
  ∀ (p : Config) (S : Block), S.flame = S.flameprime →
    (S.flameprime > p.agility → (filterUpdate p S).flameprime.toNat = S.flameprime.toNat - p.agility.toNat) ∧
    (S.flameprime ≤ p.agility → (filterUpdate p S).flameprime = S.flameprime) ∧
    (S.flameprime > p.agility → p.agility > 0 → S.flame < 255 → ∀ v : Byte, v ≥ S.flame →
      (filterUpdate p ((filterUpdate p S).setFlame v)).flameprime = S.flameprime)

/-- 43_filter.md R60: the output moves by exactly `AGILITY` or not at all, up only below `flame`, down only at or above
it; so the outputs before and after a STEP differ by at most `AGILITY`, 2 on this hardware. -/
def Obligations.OutputRateIsBounded : Prop :=
  (∀ (p : Config) (S : Block),
    (filterUpdate p S).flameprime.toNat = S.flameprime.toNat ∨
    (S.flame > S.flameprime ∧ (filterUpdate p S).flameprime.toNat = S.flameprime.toNat + p.agility.toNat) ∨
    (S.flame ≤ S.flameprime ∧ (filterUpdate p S).flameprime.toNat + p.agility.toNat = S.flameprime.toNat)) ∧
  (∀ (p : Config) (S : Block), (stepBlock p S).flameprime.toNat ≤ S.flameprime.toNat + p.agility.toNat ∧
    S.flameprime.toNat ≤ (stepBlock p S).flameprime.toNat + p.agility.toNat) ∧
  (∀ (s : State), ∃ t, exec .step s = .next t ∧ t.out.toNat ≤ s.out.toNat + 2 ∧ s.out.toNat ≤ t.out.toNat + 2)

/-- 43_filter.md R61: an increment ends at most at 254 and a decrement at least at 1; on this hardware a stream of STEPs
from the zero state shows even outputs, 2 after the first and 2 to 254 ever after; and with `AGILITY` 0 or 255 the output
never changes. -/
def Obligations.OutputRangeOfTheFilter : Prop :=
  (∀ (p : Config) (S : Block), (filterUpdate p S).flameprime > S.flameprime → (filterUpdate p S).flameprime ≤ 254) ∧
  (∀ (p : Config) (S : Block), (filterUpdate p S).flameprime < S.flameprime → (filterUpdate p S).flameprime ≥ 1) ∧
  (stepTimes Config.hardware 1 Block.zero).flameprime = 2 ∧
  (∀ n, 0 < n → (stepTimes Config.hardware n Block.zero).flameprime.toNat % 2 = 0 ∧
    2 ≤ (stepTimes Config.hardware n Block.zero).flameprime ∧
    (stepTimes Config.hardware n Block.zero).flameprime ≤ 254) ∧
  (∀ (p : Config) (S : Block), p.agility = 0 ∨ p.agility = 255 → filterUpdate p S = S)

/-! The commands. -/

/-- 44_commands.md R62: STEP completes in every state, and does to the block, in the arithmetic of 00_scope.md R9, the three
micro-operations in order; `out` then shows the new `flameprime`, and what the host has still to do is unchanged. -/
def Obligations.StepCommandFollowsItsRule : Prop :=
  ∀ (s : State), ∃ t, exec .step s = .next t ∧ t.block.tuple = s.block.tuple.step Config.hardware ∧
    t.out = t.block.flameprime ∧ t.pending = s.pending

/-- STEP at any values of the tuning constants agrees with the rules' arithmetic (00_scope.md R6, R9). Off the reference
constants that arithmetic is the spec's own extrapolation (92_eei_decisions.md D12; log entry 7). -/
def Obligations.StepAgreesWithTheArithmeticAtEveryConfiguration : Prop :=
  ∀ (p : Config) (n : Nat) (S : Block), (stepTimes p n S).tuple = (Tuple.step p)^[n] S.tuple

/-- 44_commands.md R63, R64: a STEP's generator moves by the draws of its two updates and no other, 2 to 5 of them, by the
table of the two. -/
def Obligations.StepMakesTwoToFiveDraws : Prop :=
  ∀ (s : State), ∃ t, exec .step s = .next t ∧
    sameGenerator t.block (drawTimes (stepDrawCount Config.hardware s.block) s.block) ∧
    stepDrawCount Config.hardware s.block =
      (if (drawTimes 1 s.block).c < 5 then (if (drawTimes 2 s.block).c > 220 then 3 else 2) else 1) +
      (if collapses Config.hardware (windUpdate Config.hardware s.block) then 2 else 1) ∧
    2 ≤ stepDrawCount Config.hardware s.block ∧ stepDrawCount Config.hardware s.block ≤ 5

/-- 44_commands.md R65: INIT completes in every state with all seven registers 0 and `out` at 0, and from the zero state
changes nothing. -/
def Obligations.InitPutsTheBlockInTheZeroState : Prop :=
  (∀ (s : State), ∃ t, exec .init s = .next t ∧
    t.block.tuple = { x := 0, a := 0, b := 0, c := 0, wind := 0, flame := 0, flameprime := 0 } ∧
    t.out = 0 ∧ t.pending = s.pending) ∧
  (∀ (s : State), s.block = Block.zero → exec .init s = .next s)

/-- 44_commands.md R66: NOP completes in every state and changes nothing, `out` included; and NOPs inserted anywhere in a
stream, or taken out of it, leave its final block as it was. -/
def Obligations.NopChangesNothingAnywhere : Prop :=
  (∀ (s : State), exec .nop s = .next s) ∧
  (∀ (events : List HostEvent) (S : Block),
    finalBlock (events.filter (fun e => !isNop e)) S = finalBlock events S)

/-- 60_exceptions.md R70, R76: every command completes in every one of the 2^56 states of the block, reachable or not,
and takes nothing from what the host has still to do. -/
def Obligations.EveryCommandCompletesInEveryState : Prop :=
  ∀ (i : Instr) (s : State), ∃ t, exec i s = .next t ∧ t.pending = s.pending

/-- A STEP at `flame` 255 and `flameprime` 254 without a gust or a collapse leaves `flame` and the output as they are: the
plateau of 90_conflicts.md C6, which is a behaviour of the block and not excluded by it. -/
def Obligations.OutputPlateauHoldsUntilACollapse : Prop :=
  ∀ (s : State), s.block.flame = 255 → s.block.flameprime = 254 →
    ¬ collapses Config.hardware (windUpdate Config.hardware s.block) →
    ∃ t, exec .step s = .next t ∧ t.block.flame = 255 ∧ t.out = 254

/-- The corner values of the tuning constants (00_scope.md R6, 41_wind.md R48): with `VAR` 0 no STEP gusts and each makes one
wind draw; with `VAR` 255 only a first draw of 255 stops at one; with `CALM` 8 or more nothing collapses. -/
def Obligations.CornerConfigurationsBehaveAsStated : Prop :=
  (∀ (p : Config) (S : Block), p.var = 0 → ¬ gusts p S ∧ windDrawCount p S = 1) ∧
  (∀ (p : Config) (S : Block), p.var = 255 → (windDrawCount p S = 1 ↔ (drawTimes 1 S).c = 255)) ∧
  (∀ (p : Config) (S : Block), p.calm ≥ 8 → ¬ collapses p S ∧
    (flameUpdate p S).flame.toNat = min 255 (S.flame.toNat + 1))

/-! Runs. -/

/-- What the model takes to hold of every reachable block holds at reset. -/
def Obligations.ReachableBlockAtReset : Prop := State.reset.block.Reachable

/-- 10_state.md R24 items 2 to 4: every step, whatever the host does, keeps the invariant of the reachable blocks. -/
def Obligations.EveryStepKeepsTheBlockReachable : Prop :=
  ∀ (s t : State), s.block.Reachable → step s = .next t → t.block.Reachable

/-- 10_state.md R24 items 2 to 4: after a STEP from a reachable block the output is even and from 2 to 254, `wind` is not
255, and `flame` is at least 1 unless that STEP's collapse drew 0. -/
def Obligations.StepFromAReachableBlockKeepsTheRanges : Prop :=
  ∀ (s : State), s.block.Reachable → ∃ t, exec .step s = .next t ∧
    t.out.toNat % 2 = 0 ∧ 2 ≤ t.out ∧ t.out ≤ 254 ∧ t.block.wind ≠ 255 ∧
    (t.block.flame ≥ 1 ∨ (collapses Config.hardware (windUpdate Config.hardware s.block) ∧
      collapseValue (windUpdate Config.hardware s.block) = 0))

/-- 10_state.md R24 item 5, 40_entropy.md R46 item 1: after any stream with a final state, from reset, `x` is the number of
draws since the last reset, modulo 256. -/
def Obligations.CounterHoldsTheDrawsSinceReset : Prop :=
  ∀ (events : List HostEvent), dutiful events = true →
    ∃ T, finalBlock events State.reset.block = some T ∧
      T.x.toNat = drawsSinceReset events State.reset.block 0 % 256

/-- 10_state.md R24 item 5, 40_entropy.md R46 item 1, one event at a time and from every state: where `x` is the number of
draws since the last reset, modulo 256, it is so again after an event, and after a step, that has a next state. -/
def Obligations.EveryEventKeepsTheCounterEqualToTheDraws : Prop :=
  (∀ (e : HostEvent) (s t : State) (n : Nat), s.block.x.toNat = n % 256 → perform e s = .next t →
    t.block.x.toNat = countAfterEvent e s.block n % 256) ∧
  (∀ (s t : State) (n : Nat), s.block.x.toNat = n % 256 → step s = .next t →
    (s.pending = [] ∧ t.block.x.toNat = n % 256) ∨
    ∃ e rest, s.pending = e :: rest ∧ t.block.x.toNat = countAfterEvent e s.block n % 256)

/-- 44_commands.md R67: what follows a reset, its final block and every value `out` shows, is a function of the commands
since it: the earlier ones, and the block they started from, leave no trace. -/
def Obligations.CommandsSinceTheLastResetDecideEverything : Prop :=
  ∀ (before after : List HostEvent) (e : HostEvent) (S : Block), dutiful before = true → isReset e →
    finalBlock (before ++ e :: after) S = finalBlock after Block.zero ∧
    ∀ k, (outsAfter (before.length + 1 + k) (State.awaiting S (before ++ e :: after))).drop (before.length + 1) =
      outsAfter k (State.awaiting Block.zero after)

/-- 20_memory.md R31: commands are performed strictly in issue order; each sees every effect of the earlier ones and none of
the later ones. -/
def Obligations.CommandsTakeEffectInIssueOrder : Prop :=
  (∀ (first second : List HostEvent) (S : Block),
    finalBlock (first ++ second) S = (finalBlock first S).bind (fun T => finalBlock second T)) ∧
  (∀ (first second : List HostEvent) (S : Block) (k : Nat), k ≤ first.length →
    outsAfter k (State.awaiting S (first ++ second)) = outsAfter k (State.awaiting S first))

/-- 70_reset_and_hazards.md R86 with 60_exceptions.md R70: from every block, a stream has a final state exactly if the host
keeps its duties and power stays on during commands; it then never stops, however many steps are taken. The form of the
events is the model's (log entries 4 and 5). -/
def Obligations.DutifulStreamsAndOnlyTheyComplete : Prop :=
  (∀ (events : List HostEvent) (S : Block), (finalBlock events S).isSome = dutiful events) ∧
  (∀ (events : List HostEvent) (S : Block) (k : Nat), dutiful events = true →
    ∃ t, run k (State.awaiting S events) = .next t ∧ t.pending = events.drop k)

/-- 30_encoding.md R39: the reserved code is refused, with no transition, and the refusal is kept: a stream that holds it
has no final state, and a run that comes to it stays refused. -/
def Obligations.ReservedCodeIsRefusedForGood : Prop :=
  decode 0b11#2 = .error .reservedCode ∧
  (∀ (s : State) (rest : List HostEvent), s.pending = .command 0b11#2 :: rest → step s = .refused .reservedCommand) ∧
  (∀ (before rest : List HostEvent) (S : Block) (k : Nat), dutiful before = true → k > before.length →
    run k (State.awaiting S (before ++ .command 0b11#2 :: rest)) = .refused .reservedCommand) ∧
  (∀ (events : List HostEvent) (S : Block), .command 0b11#2 ∈ events → finalBlock events S = none)

/-- 20_memory.md R32: two commands that overlap are a fault, whichever they are, and the fault is kept: a run that comes to it
stays faulted and the stream has no final state. -/
def Obligations.OverlapIsAFaultForGood : Prop :=
  (∀ (c d : Code) (before rest : List HostEvent) (S : Block) (k : Nat), dutiful before = true → k > before.length →
    run k (State.awaiting S (before ++ .overlap c d :: rest)) = .fault .overlappingCommands) ∧
  (∀ (c d : Code) (events : List HostEvent) (S : Block), .overlap c d ∈ events → finalBlock events S = none)

/-- 60_exceptions.md R81, 93_implementation_defined.md U8: a loss of power during a command leaves no successor state; after one
between commands, power-on reset starts again from the zero state, so what follows does not depend on what was lost.
The fault's name and the event's form are the model's, and so is that the reserved code cut off by a loss of power is
this fault and not the refusal (log entry 5). -/
def Obligations.PowerLossKeepsNoState : Prop :=
  (∀ (c : Code) (before rest : List HostEvent) (S : Block) (k : Nat), dutiful before = true → k > before.length →
    run k (State.awaiting S (before ++ .powerLoss c :: rest)) = .fault .powerLostDuringCommand) ∧
  (∀ (rest : List HostEvent) (S T : Block), finalBlock (.powerOn :: rest) S = finalBlock (.powerOn :: rest) T)

/-! The notations. -/

/-- 30_encoding.md R41: capitals and small letters are the same, a comment changes nothing, and a line that is blank up to its
comment assembles to no command. -/
def Obligations.AssemblyIgnoresCaseCommentsAndBlankLines : Prop :=
  (∀ l m : List Char, l.map Char.toUpper = m.map Char.toUpper → assembleLine l = assembleLine m) ∧
  (∀ l note : List Char, assembleLine (l ++ ';' :: note) = assembleLine l) ∧
  (∀ l : List Char, (∀ ch ∈ l, isBlank ch = true) → assembleLine l = some [])

/-- A command stream written one command a line assembles to itself (30_encoding.md R41), and issued, from any block, it has
a final block. The layout of a line is the model's reading (log entry 12). -/
def Obligations.RenderedTextAssemblesToItsStream : Prop :=
  ∀ (is : List Instr), assemble (render is) = some is ∧ ∀ (S : Block), ∃ T, finalBlock (issues is) S = some T

/-- A listing reads back as the codes it was made from, the reserved code among them (30_encoding.md R41,
92_eei_decisions.md D22). The layout of a listing is the model's reading (log entry 12). -/
def Obligations.ListingReadsBack : Prop :=
  ∀ (codes : List Code), readListing (listing codes) = some codes

/-- 30_encoding.md R42: `STEPS n` assembles to `n` STEPs, none for 0, for every decimal numeral `n`; the block sees only the
STEPs. That one space stands before the numeral, and that every row of digits is one, leading zeros included, is the
model's choice (log entry 12). -/
def Obligations.StepsExpandsToThatManyStepCommands : Prop :=
  (∀ digits : List Char, digits ≠ [] → (∀ ch ∈ digits, ch.isDigit = true) →
    assembleLine (stepsName ++ ' ' :: digits) = some (List.replicate (digitsValue digits) .step)) ∧
  (∀ (n : Nat) (S : Block),
    finalBlock (issues (List.replicate n .step)) S = some (stepTimes Config.hardware n S))
end

