-- ==== Sys2Proof/Laws/State.lean ====
section
/-! SUPPORT. One lemma per field per register operation, so that no proof unfolds a record update. -/

namespace Sys2Proof.Machine

@[simp] theorem Block.setGenerator_x (S : Block) (x a b c : Byte) : (S.setGenerator x a b c).x = x := rfl
@[simp] theorem Block.setGenerator_a (S : Block) (x a b c : Byte) : (S.setGenerator x a b c).a = a := rfl
@[simp] theorem Block.setGenerator_b (S : Block) (x a b c : Byte) : (S.setGenerator x a b c).b = b := rfl
@[simp] theorem Block.setGenerator_c (S : Block) (x a b c : Byte) : (S.setGenerator x a b c).c = c := rfl
@[simp] theorem Block.setGenerator_wind (S : Block) (x a b c : Byte) : (S.setGenerator x a b c).wind = S.wind := rfl
@[simp] theorem Block.setGenerator_flame (S : Block) (x a b c : Byte) : (S.setGenerator x a b c).flame = S.flame := rfl
@[simp] theorem Block.setGenerator_flameprime (S : Block) (x a b c : Byte) : (S.setGenerator x a b c).flameprime = S.flameprime := rfl

@[simp] theorem Block.setWind_x (S : Block) (v : Byte) : (S.setWind v).x = S.x := rfl
@[simp] theorem Block.setWind_a (S : Block) (v : Byte) : (S.setWind v).a = S.a := rfl
@[simp] theorem Block.setWind_b (S : Block) (v : Byte) : (S.setWind v).b = S.b := rfl
@[simp] theorem Block.setWind_c (S : Block) (v : Byte) : (S.setWind v).c = S.c := rfl
@[simp] theorem Block.setWind_wind (S : Block) (v : Byte) : (S.setWind v).wind = v := rfl
@[simp] theorem Block.setWind_flame (S : Block) (v : Byte) : (S.setWind v).flame = S.flame := rfl
@[simp] theorem Block.setWind_flameprime (S : Block) (v : Byte) : (S.setWind v).flameprime = S.flameprime := rfl

@[simp] theorem Block.setFlame_x (S : Block) (v : Byte) : (S.setFlame v).x = S.x := rfl
@[simp] theorem Block.setFlame_a (S : Block) (v : Byte) : (S.setFlame v).a = S.a := rfl
@[simp] theorem Block.setFlame_b (S : Block) (v : Byte) : (S.setFlame v).b = S.b := rfl
@[simp] theorem Block.setFlame_c (S : Block) (v : Byte) : (S.setFlame v).c = S.c := rfl
@[simp] theorem Block.setFlame_wind (S : Block) (v : Byte) : (S.setFlame v).wind = S.wind := rfl
@[simp] theorem Block.setFlame_flame (S : Block) (v : Byte) : (S.setFlame v).flame = v := rfl
@[simp] theorem Block.setFlame_flameprime (S : Block) (v : Byte) : (S.setFlame v).flameprime = S.flameprime := rfl

@[simp] theorem Block.setFlameprime_x (S : Block) (v : Byte) : (S.setFlameprime v).x = S.x := rfl
@[simp] theorem Block.setFlameprime_a (S : Block) (v : Byte) : (S.setFlameprime v).a = S.a := rfl
@[simp] theorem Block.setFlameprime_b (S : Block) (v : Byte) : (S.setFlameprime v).b = S.b := rfl
@[simp] theorem Block.setFlameprime_c (S : Block) (v : Byte) : (S.setFlameprime v).c = S.c := rfl
@[simp] theorem Block.setFlameprime_wind (S : Block) (v : Byte) : (S.setFlameprime v).wind = S.wind := rfl
@[simp] theorem Block.setFlameprime_flame (S : Block) (v : Byte) : (S.setFlameprime v).flame = S.flame := rfl
@[simp] theorem Block.setFlameprime_flameprime (S : Block) (v : Byte) : (S.setFlameprime v).flameprime = v := rfl

/-- Clearing the block forgets what it held. -/
@[simp] theorem Block.clear_eq_zero (S : Block) : S.clear = Block.zero := rfl

@[simp] theorem Block.zero_x : Block.zero.x = 0 := rfl
@[simp] theorem Block.zero_a : Block.zero.a = 0 := rfl
@[simp] theorem Block.zero_b : Block.zero.b = 0 := rfl
@[simp] theorem Block.zero_c : Block.zero.c = 0 := rfl
@[simp] theorem Block.zero_wind : Block.zero.wind = 0 := rfl
@[simp] theorem Block.zero_flame : Block.zero.flame = 0 := rfl
@[simp] theorem Block.zero_flameprime : Block.zero.flameprime = 0 := rfl

@[simp] theorem State.setBlock_block (s : State) (S : Block) : (s.setBlock S).block = S := rfl
@[simp] theorem State.setBlock_pending (s : State) (S : Block) : (s.setBlock S).pending = s.pending := rfl
@[simp] theorem State.setPending_block (s : State) (es : List HostEvent) : (s.setPending es).block = s.block := rfl
@[simp] theorem State.setPending_pending (s : State) (es : List HostEvent) : (s.setPending es).pending = es := rfl
@[simp] theorem State.reset_block : State.reset.block = Block.zero := rfl
@[simp] theorem State.reset_pending : State.reset.pending = [] := rfl
@[simp] theorem State.out_setBlock (s : State) (S : Block) : (s.setBlock S).out = S.flameprime := rfl

end Sys2Proof.Machine
end

