-- ==== Sys2Proof/Laws/Entropy.lean ====
section
/-! SUPPORT. What DRAW does, register by register, and what it leaves alone. -/

namespace Sys2Proof.Machine

theorem draw_x (S : Block) : (draw S).x = S.x + 1 := rfl

theorem draw_a (S : Block) : (draw S).a = S.a ^^^ S.c ^^^ (draw S).x := rfl

theorem draw_b (S : Block) : (draw S).b = S.b + (draw S).a := rfl

theorem draw_c (S : Block) : (draw S).c = (S.c + ((draw S).b >>> 1)) ^^^ (draw S).a := rfl

@[simp] theorem draw_wind (S : Block) : (draw S).wind = S.wind := rfl
@[simp] theorem draw_flame (S : Block) : (draw S).flame = S.flame := rfl
@[simp] theorem draw_flameprime (S : Block) : (draw S).flameprime = S.flameprime := rfl

/-- DRAW reads and writes nothing but the generator: it commutes with a write of another register. -/
@[simp] theorem draw_setWind (S : Block) (v : Byte) : draw (S.setWind v) = (draw S).setWind v := rfl
@[simp] theorem draw_setFlame (S : Block) (v : Byte) : draw (S.setFlame v) = (draw S).setFlame v := rfl
@[simp] theorem draw_setFlameprime (S : Block) (v : Byte) : draw (S.setFlameprime v) = (draw S).setFlameprime v := rfl

@[simp] theorem drawTimes_zero (S : Block) : drawTimes 0 S = S := rfl
@[simp] theorem drawTimes_succ (n : Nat) (S : Block) : drawTimes (n + 1) S = drawTimes n (draw S) := rfl

theorem drawTimes_add (m n : Nat) (S : Block) : drawTimes (m + n) S = drawTimes n (drawTimes m S) := by
  induction m generalizing S with
  | zero => simp
  | succ m ih => rw [Nat.succ_add, drawTimes_succ, drawTimes_succ, ih]

end Sys2Proof.Machine
end

