-- ==== Sys2Proof/Laws/PerInstr.lean ====
section
/-! SUPPORT. The statements made per command: its code decodes to it and to nothing else. -/

namespace Sys2Proof.Laws.CodeOf

/-- A well-formed command is the one its code decodes to, and its code is no reserved one. -/
def Statement (i : Instr) : Prop :=
  i.wellFormed = true ∧ codeWellFormed (encode i) = true ∧
    decode (encode i) = .ok i ∧ ∀ code : Code, decode code = .ok i → code = encode i

theorem nop : Statement .nop := by unfold Statement; decide

theorem step : Statement .step := by unfold Statement; decide

theorem init : Statement .init := by unfold Statement; decide

end Sys2Proof.Laws.CodeOf
end

