-- ==== Sys2Proof/Laws/Updates.lean ====
section
/-! SUPPORT. For each micro-operation of STEP, once, everything it can do; and its frame. -/

namespace Sys2Proof.Machine

variable (p : Config) (S : Block)

/-- Steps 1 and 2 of WIND_UPDATE end in one of three ways. -/
theorem drawGust_cases :
    (¬ gustEligible p (draw S).c ∧ windDrawCount p S = 1 ∧ drawGust p S = draw S) ∨
    (gustEligible p (draw S).c ∧ ¬ passesGustGate (draw (draw S)).c ∧ windDrawCount p S = 2 ∧
      drawGust p S = draw (draw S)) ∨
    (gustEligible p (draw S).c ∧ passesGustGate (draw (draw S)).c ∧ windDrawCount p S = 3 ∧
      drawGust p S = (draw (draw (draw S))).setWind (draw (draw (draw S))).c) := by
  by_cases h1 : gustEligible p (draw S).c
  · by_cases h2 : passesGustGate (draw (draw S)).c
    · exact .inr (.inr ⟨h1, h2, by simp only [windDrawCount, if_pos h1, if_pos h2],
        by simp only [drawGust, if_pos h1, if_pos h2]⟩)
    · exact .inr (.inl ⟨h1, h2, by simp only [windDrawCount, if_pos h1, if_neg h2],
        by simp only [drawGust, if_pos h1, if_neg h2]⟩)
  · exact .inl ⟨h1, by simp only [windDrawCount, if_neg h1], by simp only [drawGust, if_neg h1]⟩

/-- Relaxation writes `wind` or nothing. -/
theorem relax_cases :
    (aboveBaseline p S ∧ relax p S = S.setWind (S.wind - 1)) ∨ (¬ aboveBaseline p S ∧ relax p S = S) := by
  by_cases h : aboveBaseline p S
  · exact .inl ⟨h, by simp only [relax, if_pos h]⟩
  · exact .inr ⟨h, by simp only [relax, if_neg h]⟩

theorem relax_eq_setWind :
    relax p S = S.setWind (if S.wind > p.base then S.wind - 1 else S.wind) := by
  obtain ⟨h, e⟩ | ⟨h, e⟩ := relax_cases p S
  · rw [e, if_pos h]
  · rw [e, if_neg h]; rfl

@[simp] theorem drawGust_flame : (drawGust p S).flame = S.flame := by
  obtain ⟨-, -, e⟩ | ⟨-, -, -, e⟩ | ⟨-, -, -, e⟩ := drawGust_cases p S <;> simp [e]

@[simp] theorem drawGust_flameprime : (drawGust p S).flameprime = S.flameprime := by
  obtain ⟨-, -, e⟩ | ⟨-, -, -, e⟩ | ⟨-, -, -, e⟩ := drawGust_cases p S <;> simp [e]

@[simp] theorem windUpdate_flame : (windUpdate p S).flame = S.flame := by simp [windUpdate, relax_eq_setWind]

@[simp] theorem windUpdate_flameprime : (windUpdate p S).flameprime = S.flameprime := by
  simp [windUpdate, relax_eq_setWind]

/-- The wind WIND_UPDATE leaves, from the one its gust left. -/
theorem windUpdate_wind :
    (windUpdate p S).wind = if (drawGust p S).wind > p.base then (drawGust p S).wind - 1 else (drawGust p S).wind := by
  simp [windUpdate, relax_eq_setWind]

/-- Growth writes `flame` or nothing. -/
theorem grow_eq_setFlame : grow S = S.setFlame (if S.flame < 255 then S.flame + 1 else S.flame) := by
  by_cases h : canGrow S
  · simp only [grow, if_pos h]
  · simp only [grow, if_neg h]; rfl

/-- Step 2 of FLAME_UPDATE ends in one of two ways. -/
theorem collapse_cases :
    (¬ knocksDown p S (draw S).c ∧ flameDrawCount p S = 1 ∧ collapse p S = draw S) ∨
    (knocksDown p S (draw S).c ∧ flameDrawCount p S = 2 ∧
      collapse p S = (draw (draw S)).setFlame (draw (draw S)).c) := by
  by_cases h : knocksDown p S (draw S).c
  · have h' : knocksDown p (draw S) (draw S).c := h
    exact .inr ⟨h, by simp only [flameDrawCount, if_pos h], by simp only [collapse, if_pos h']⟩
  · have h' : ¬ knocksDown p (draw S) (draw S).c := h
    exact .inl ⟨h, by simp only [flameDrawCount, if_neg h], by simp only [collapse, if_neg h']⟩

/-- FLAME_UPDATE ends in one of two ways, both read off the block it started from. -/
theorem flameUpdate_cases :
    (¬ knocksDown p S (draw S).c ∧ flameDrawCount p S = 1 ∧
      flameUpdate p S = (draw S).setFlame (if S.flame < 255 then S.flame + 1 else S.flame)) ∨
    (knocksDown p S (draw S).c ∧ flameDrawCount p S = 2 ∧
      flameUpdate p S = (draw (draw S)).setFlame (draw (draw S)).c) := by
  obtain ⟨h, n, e⟩ | ⟨h, n, e⟩ := collapse_cases p (grow S)
  · rw [grow_eq_setFlame] at h n e
    exact .inl ⟨h, n, by rw [flameUpdate, grow_eq_setFlame, e]; rfl⟩
  · rw [grow_eq_setFlame] at h n e
    exact .inr ⟨h, n, by rw [flameUpdate, grow_eq_setFlame, e]; rfl⟩

@[simp] theorem flameUpdate_wind : (flameUpdate p S).wind = S.wind := by
  obtain ⟨-, -, e⟩ | ⟨-, -, e⟩ := flameUpdate_cases p S <;> simp [e]

@[simp] theorem flameUpdate_flameprime : (flameUpdate p S).flameprime = S.flameprime := by
  obtain ⟨-, -, e⟩ | ⟨-, -, e⟩ := flameUpdate_cases p S <;> simp [e]

/-- FILTER_UPDATE rises, falls or does nothing. -/
theorem filterUpdate_cases :
    (S.flame > S.flameprime ∧ S.flameprime.toNat < 255 - p.agility.toNat ∧
      filterUpdate p S = S.setFlameprime (S.flameprime + p.agility)) ∨
    (S.flame > S.flameprime ∧ ¬ S.flameprime.toNat < 255 - p.agility.toNat ∧ filterUpdate p S = S) ∨
    (¬ S.flame > S.flameprime ∧ S.flameprime > p.agility ∧
      filterUpdate p S = S.setFlameprime (S.flameprime - p.agility)) ∨
    (¬ S.flame > S.flameprime ∧ ¬ S.flameprime > p.agility ∧ filterUpdate p S = S) := by
  by_cases h : flameAboveOutput S
  · by_cases g : mayRise p S
    · exact .inl ⟨h, g, by simp only [filterUpdate, if_pos h, if_pos g]⟩
    · exact .inr (.inl ⟨h, g, by simp only [filterUpdate, if_pos h, if_neg g]⟩)
  · by_cases g : mayFall p S
    · exact .inr (.inr (.inl ⟨h, g, by simp only [filterUpdate, if_neg h, if_pos g]⟩))
    · exact .inr (.inr (.inr ⟨h, g, by simp only [filterUpdate, if_neg h, if_neg g]⟩))

/-- The output FILTER_UPDATE leaves, from `flame` and the old output alone. -/
theorem filterUpdate_eq_setFlameprime :
    filterUpdate p S = S.setFlameprime (filterUpdate p S).flameprime := by
  obtain ⟨-, -, e⟩ | ⟨-, -, e⟩ | ⟨-, -, e⟩ | ⟨-, -, e⟩ := filterUpdate_cases p S <;> rw [e] <;> rfl

@[simp] theorem filterUpdate_x : (filterUpdate p S).x = S.x := by rw [filterUpdate_eq_setFlameprime]; rfl
@[simp] theorem filterUpdate_a : (filterUpdate p S).a = S.a := by rw [filterUpdate_eq_setFlameprime]; rfl
@[simp] theorem filterUpdate_b : (filterUpdate p S).b = S.b := by rw [filterUpdate_eq_setFlameprime]; rfl
@[simp] theorem filterUpdate_c : (filterUpdate p S).c = S.c := by rw [filterUpdate_eq_setFlameprime]; rfl
@[simp] theorem filterUpdate_wind : (filterUpdate p S).wind = S.wind := by rw [filterUpdate_eq_setFlameprime]; rfl
@[simp] theorem filterUpdate_flame : (filterUpdate p S).flame = S.flame := by rw [filterUpdate_eq_setFlameprime]; rfl

end Sys2Proof.Machine
end

