-- ==== Sys2Proof/Laws/Step.lean ====
section
/-! SUPPORT. What each event does, and what one step can do. -/

namespace Sys2Proof.Machine

@[simp] theorem issue_nop (s : State) : issue 0b00#2 s = .next s := rfl

@[simp] theorem issue_step (s : State) :
    issue 0b01#2 s = .next (s.setBlock (stepBlock Config.hardware s.block)) := rfl

@[simp] theorem issue_init (s : State) : issue 0b10#2 s = .next (s.setBlock Block.zero) := rfl

@[simp] theorem issue_reserved (s : State) : issue 0b11#2 s = .refused .reservedCommand := rfl

@[simp] theorem perform_command (code : Code) (s : State) : perform (.command code) s = issue code s := rfl

@[simp] theorem perform_powerOn (s : State) : perform .powerOn s = .next (s.setBlock Block.zero) := rfl

@[simp] theorem perform_overlap (c d : Code) (s : State) : perform (.overlap c d) s = .fault .overlappingCommands := rfl

@[simp] theorem perform_powerLoss (c : Code) (s : State) :
    perform (.powerLoss c) s = .fault .powerLostDuringCommand := rfl

theorem step_idle (s : State) (h : s.pending = []) : step s = .next s := by simp [step, takeNext, h]

theorem step_cons (s : State) (e : HostEvent) (rest : List HostEvent) (h : s.pending = e :: rest) :
    step s = perform e (s.setPending rest) := by simp [step, takeNext, h]

@[simp] theorem run_zero (s : State) : run 0 s = .next s := rfl

/-- What a run does is decided by its first step, for any machine. -/
theorem core_run_of_step (M : Host.Core) (k : Nat) (s : M.State) :
    (∀ t, M.step s = .next t → M.run (k + 1) s = M.run k t) ∧
    (∀ r, M.step s = .fault r → M.run (k + 1) s = .fault r) ∧
    (∀ r, M.step s = .refused r → M.run (k + 1) s = .refused r) := by
  refine ⟨fun t h => ?_, fun r h => ?_, fun r h => ?_⟩ <;> rw [Host.Core.run, h]

theorem run_succ_of_next {s t : State} (k : Nat) (h : step s = .next t) : run (k + 1) s = run k t :=
  (core_run_of_step Sys2Proof.core k s).1 t h

theorem run_succ_of_fault {s : State} {r : Fault} (k : Nat) (h : step s = .fault r) : run (k + 1) s = .fault r :=
  (core_run_of_step Sys2Proof.core k s).2.1 r h

theorem run_succ_of_refused {s : State} {r : Refusal} (k : Nat) (h : step s = .refused r) :
    run (k + 1) s = .refused r :=
  (core_run_of_step Sys2Proof.core k s).2.2 r h

/-- A run is a step, then the rest of the run. -/
theorem run_succ (k : Nat) (s : State) :
    run (k + 1) s =
      match step s with
      | .next t => run k t
      | .fault r => .fault r
      | .refused r => .refused r := by
  cases h : step s with
  | next t => exact run_succ_of_next k h
  | fault r => exact run_succ_of_fault k h
  | refused r => exact run_succ_of_refused k h

@[simp] theorem step_awaiting (S : Block) (e : HostEvent) (rest : List HostEvent) :
    step (State.awaiting S (e :: rest)) = perform e (State.awaiting S rest) := rfl

@[simp] theorem step_awaiting_nil (S : Block) : step (State.awaiting S []) = .next (State.awaiting S []) := rfl

/-- The four codes. -/
theorem code_cases (code : Code) : code = 0b00#2 ∨ code = 0b01#2 ∨ code = 0b10#2 ∨ code = 0b11#2 := by
  revert code; decide

/-- All that a step which answers a next state can have done. -/
theorem step_next_cases {s t : State} (h : step s = .next t) :
    (s.pending = [] ∧ t = s) ∨
    ∃ e rest, s.pending = e :: rest ∧ t.pending = rest ∧
      ((e = .command 0b00#2 ∧ t.block = s.block) ∨
       (e = .command 0b01#2 ∧ t.block = stepBlock Config.hardware s.block) ∨
       (e = .command 0b10#2 ∧ t.block = Block.zero) ∨
       (e = .powerOn ∧ t.block = Block.zero)) := by
  match hp : s.pending with
  | [] =>
    rw [step_idle s hp] at h
    cases h; exact .inl ⟨rfl, rfl⟩
  | e :: rest =>
    rw [step_cons s e rest hp] at h
    refine .inr ⟨e, rest, rfl, ?_⟩
    cases e with
    | command code =>
      obtain rfl | rfl | rfl | rfl := code_cases code <;> simp at h <;> subst h <;> simp
    | overlap c d => simp at h
    | powerOn => simp at h; subst h; simp
    | powerLoss c => simp at h

end Sys2Proof.Machine
end

