-- ==== Sys2Proof/Tests/Slice0.lean ====
section
/-! SUPPORT. Tests against the vectors of 95_test_vectors.md, the smoke tests of the checks, and for each statement with
hypotheses a state and operands that meet them. -/

namespace Sys2Proof.Tests

open Sys2Proof Sys2Proof.Machine

/-- A block from the tuple in which the spec writes it (10_state.md R13). -/
def blockOf (x a b c wind flame flameprime : Nat) : Block :=
  { x := BitVec.ofNat 8 x, a := BitVec.ofNat 8 a, b := BitVec.ofNat 8 b, c := BitVec.ofNat 8 c,
    wind := BitVec.ofNat 8 wind, flame := BitVec.ofNat 8 flame, flameprime := BitVec.ofNat 8 flameprime }

/-- A state with that block, and a NOP and a STEP still to come. -/
def stateOf (S : Block) : State := State.awaiting S [.command 0b00#2, .command 0b01#2]

/-- The next state of an outcome that has one. -/
def nextOf (o : Host.Outcome State Fault Refusal) : Option State :=
  match o with
  | .next t => some t
  | .fault _ => none
  | .refused _ => none

/-! Decoding: words written out from 30_encoding.md R38 and R41. -/

theorem test_decode_nop : decode 0b00#2 = .ok .nop ∧ decodeTableWord 8 0b00000000 = some .nop := by decide
theorem test_decode_step : decode 0b01#2 = .ok .step ∧ decodeTableWord 8 0b00000001 = some .step := by decide
theorem test_decode_init : decode 0b10#2 = .ok .init ∧ decodeTableWord 8 0b00000010 = some .init := by decide
theorem test_decode_reserved : decode 0b11#2 = .error .reservedCode ∧ decodeTableWord 8 0b00000011 = none := by decide

/-! Smoke tests: what the checks refuse. -/

theorem test_reserved_code_ill_formed : codeWellFormed 0b11#2 = false := by decide
theorem test_stream_with_reserved_code_ill_formed :
    streamWellFormed [0b10#2, 0b01#2, 0b11#2, 0b01#2] = false ∧ streamWellFormed [0b10#2, 0b01#2, 0b01#2] = true := by
  decide
theorem test_commands_well_formed : Instr.nop.wellFormed ∧ Instr.step.wellFormed ∧ Instr.init.wellFormed := by decide
theorem test_duties_refused : HostEvent.obeysDuties (.command 0b11#2) = false ∧
    HostEvent.obeysDuties (.overlap 0b01#2 0b01#2) = false ∧ HostEvent.obeysDuties (.powerLoss 0b01#2) = false := by
  decide

/-! The constants (00_scope.md R5). -/

theorem test_hardware_constants : Config.hardware.var = 5 ∧ Config.hardware.base = 30 ∧ Config.hardware.calm = 2 ∧
    Config.hardware.agility = 2 := by decide

/-! The micro-operations (95_test_vectors.md V-DRAW-2, V-WIND, V-FLAME, V-FILTER). -/

theorem test_draw_wraps : draw (blockOf 255 255 255 255 7 8 9) = blockOf 0 0 255 126 7 8 9 := by decide
theorem test_draw_uses_new_a : draw (blockOf 0 128 128 255 0 0 0) = blockOf 1 126 254 0 0 0 0 := by decide
theorem test_wind_gust_relaxed_at_once :
    windUpdate Config.hardware (blockOf 133 114 164 203 0 1 2) = blockOf 136 218 120 255 254 1 2 := by decide
theorem test_wind_gate_is_strict :
    windUpdate Config.hardware (blockOf 68 68 15 250 100 1 2) = blockOf 70 185 195 220 99 1 2 := by decide
theorem test_flame_collapse_replaces_growth :
    flameUpdate Config.hardware (blockOf 208 116 145 159 252 100 1) = blockOf 210 214 161 88 252 88 1 := by decide
theorem test_flame_threshold_is_strict :
    flameUpdate Config.hardware (blockOf 86 20 32 186 254 100 1) = blockOf 87 249 25 63 254 101 1 := by decide
theorem test_filter_stays_at_253 :
    (filterUpdate Config.hardware (blockOf 0 0 0 0 0 255 253)).flameprime = 253 := by decide
theorem test_filter_equality_steps_down :
    (filterUpdate Config.hardware (blockOf 0 0 0 0 0 100 100)).flameprime = 98 := by decide

/-! The commands (95_test_vectors.md V-STEP-1, V-STEP-2, L2.6). -/

/-- The state before STEP 203 of V-STEP-2, the first gust. -/
theorem test_step_first_gust :
    (nextOf (exec .step (stateOf (blockOf 151 26 217 163 0 202 202)))).map State.block =
      some (blockOf 155 135 250 222 219 203 204) := by decide
/-- The state before STEP 205 of V-STEP-2, the first collapse. -/
theorem test_step_first_collapse :
    (nextOf (exec .step (stateOf (blockOf 157 160 95 135 218 204 202)))).map State.block =
      some (blockOf 160 156 192 12 217 12 200) := by decide
theorem test_init_clears : nextOf (exec .init (stateOf (blockOf 155 135 250 222 219 203 204))) =
    some (stateOf (blockOf 0 0 0 0 0 0 0)) := by decide
theorem test_nop_changes_nothing : nextOf (exec .nop (stateOf (blockOf 3 1 4 3 0 1 2))) =
    some (stateOf (blockOf 3 1 4 3 0 1 2)) := by decide
/-- 90_conflicts.md C1: the first STEP after reset shows 2. -/
theorem test_first_step_after_reset : (nextOf (step (State.reset.withFetchWord 8 1))).map
    (fun t => (t.block, t.out)) = some (blockOf 3 1 4 3 0 1 2, 2) := by decide

/-! The notations (95_test_vectors.md P1, P5). -/

/-- `Init ; 2`, a blank line, `STEPS 3`. -/
theorem test_assemble : assemble ['I', 'n', 'i', 't', ' ', ';', ' ', '2', '\n', '\n', 'S', 'T', 'E', 'P', 'S', ' ', '3'] =
    some [.init, .step, .step, .step] := by decide
theorem test_assemble_unknown_word : assemble ['H', 'A', 'L', 'T'] = none := by decide
theorem test_listing : listing [0b10#2, 0b01#2, 0b11#2, 0b01#2] = ['2', ' ', '1', ' ', '3', ' ', '1'] := by decide

/-! Witnesses: states and operands that meet the hypotheses of the statements, clause by clause. -/

theorem witness_BothResetsGiveTheSameState : isReset .powerOn ∧ isReset (.command 0b10#2) := by decide

theorem witness_IdleBlockDoesNothing : State.reset.pending = [] := by decide

theorem witness_StepRunsTheDecodedCommand :
    (stateOf (blockOf 3 1 4 3 0 1 2)).pending = .command 0b00#2 :: [.command 0b01#2] ∧ decode 0b00#2 = .ok .nop := by
  decide

theorem witness_IssuedWordRunsAsItsCommand : decodeTableWord 8 2 = some .init := by decide

theorem witness_DecodeAndEncodeAgree : Instr.step.wellFormed = true := by decide

theorem witness_OnlyTheNamedWriterWritesARegister :
    ∃ t, perform (.command 0b01#2) State.reset = .next t ∧ t.block ≠ State.reset.block :=
  ⟨_, rfl, by decide⟩

/-- `r1 = 5`, the least first draw that is not eligible. -/
theorem witness_WindUpdateDrawsFollowTheTable_one :
    (drawTimes 1 (blockOf 41 191 149 222 31 0 0)).c ≥ Config.hardware.var := by decide
/-- `r1 = 4` and `r2 = 220`, the greatest that does not gust. -/
theorem witness_WindUpdateDrawsFollowTheTable_two :
    (drawTimes 1 (blockOf 68 68 15 250 100 0 0)).c < Config.hardware.var ∧
    (drawTimes 2 (blockOf 68 68 15 250 100 0 0)).c ≤ 220 := by decide
/-- `r2 = 221`, the least that gusts. -/
theorem witness_WindUpdateDrawsFollowTheTable_three :
    (drawTimes 1 (blockOf 100 20 234 137 100 0 0)).c < Config.hardware.var ∧
    (drawTimes 2 (blockOf 100 20 234 137 100 0 0)).c > 220 := by decide

theorem witness_GustReplacesWindAndRelaxationOnlyLowersIt_gust :
    gusts Config.hardware (blockOf 100 20 234 137 100 0 0) := by decide
theorem witness_GustReplacesWindAndRelaxationOnlyLowersIt_at_baseline :
    ¬ gusts Config.hardware (blockOf 41 191 149 222 30 0 0) ∧
    (blockOf 41 191 149 222 30 0 0).wind ≤ Config.hardware.base := by decide
theorem witness_GustReplacesWindAndRelaxationOnlyLowersIt_below :
    (∀ k, k < 3 → ¬ gusts Config.hardware (stepTimes Config.hardware k (blockOf 41 191 149 222 29 0 0))) ∧
    (blockOf 41 191 149 222 29 0 0).wind < Config.hardware.base := by decide

theorem witness_WindDecaysLinearlyToTheBaseline_without :
    ∀ k, k < 3 → ¬ gusts Config.hardware (stepTimes Config.hardware k (blockOf 41 191 149 222 31 0 0)) := by decide
/-- A gust at 33, down at 30 after three STEPs. -/
theorem witness_WindDecaysLinearlyToTheBaseline_gust :
    gusts Config.hardware (blockOf 59 67 181 152 0 0 0) ∧ gustValue (blockOf 59 67 181 152 0 0 0) = 33 ∧
    gustValue (blockOf 59 67 181 152 0 0 0) > Config.hardware.base ∧
    (∀ k, k < 3 → 0 < k → ¬ gusts Config.hardware (stepTimes Config.hardware k (blockOf 59 67 181 152 0 0 0))) := by
  decide

theorem witness_WindRangeAfterWindUpdate_base :
    Config.hardware.base < 255 ∧ { Config.hardware with base := 254 }.base < 255 ∧
    { Config.hardware with base := 255 }.base = 255 := by decide
theorem witness_WindRangeAfterWindUpdate_above :
    (blockOf 41 191 149 222 31 0 0).wind > Config.hardware.base ∧
    ¬ gusts Config.hardware (blockOf 41 191 149 222 31 0 0) := by decide
theorem witness_WindRangeAfterWindUpdate_below :
    (windUpdate Config.hardware (blockOf 100 20 234 137 100 0 0)).wind < Config.hardware.base := by decide

/-- STEP 205 of V-STEP-2. -/
theorem witness_CollapseReadsTheWindOfTheSameStep_collapse :
    collapses Config.hardware (windUpdate Config.hardware (blockOf 157 160 95 135 218 204 202)) := by decide
theorem witness_CollapseReadsTheWindOfTheSameStep_none :
    ¬ collapses Config.hardware (windUpdate Config.hardware (blockOf 0 0 0 0 0 0 0)) := by decide

/-- `r = 63` against the threshold 63. -/
theorem witness_FlameUpdateDrawsFollowTheTable_one : ¬ collapses Config.hardware (blockOf 86 20 32 186 254 100 0) := by
  decide
/-- `r = 62` against the threshold 63. -/
theorem witness_FlameUpdateDrawsFollowTheTable_two : collapses Config.hardware (blockOf 208 116 145 159 252 100 0) := by
  decide

theorem witness_CollapseThresholdIsTheShiftedWind : { Config.hardware with calm := 8 }.calm ≥ 8 ∧
    (3 : Byte) ≤ 4 ∧ (blockOf 0 0 0 0 30 0 0).wind = 30 := by decide

theorem witness_FlameGrowsUntilKnockedDown :
    ¬ collapses Config.hardware (blockOf 0 0 0 0 3 254 0) ∧ (blockOf 0 0 0 0 3 254 0).wind ≤ 3 ∧
    (∀ k, k < 3 → ¬ gusts Config.hardware (stepTimes Config.hardware k (blockOf 0 0 0 0 3 254 0))) := by decide

theorem witness_FlameGrowsUntilKnockedDown_run :
    ∀ k, k < 2 → ¬ collapses Config.hardware (windUpdate Config.hardware
      (stepTimes Config.hardware k (blockOf 151 26 217 163 0 202 202))) := by decide
/-- V-WIND's gust to 1, from a wind that was not low: this STEP gusts and its collapse reads a wind of 1. -/
theorem witness_FlameGrowsUntilKnockedDown_gust_to_low_wind :
    gusts Config.hardware (blockOf 1 88 102 189 100 0 0) ∧ ∀ k, k < 1 →
      (windUpdate Config.hardware (stepTimes Config.hardware k (blockOf 1 88 102 189 100 0 0))).wind ≤ 3 := by decide

theorem witness_FilterStepsDownAtEquality_falls :
    (blockOf 0 0 0 0 0 3 3).flame = (blockOf 0 0 0 0 0 3 3).flameprime ∧
    (blockOf 0 0 0 0 0 3 3).flameprime > Config.hardware.agility := by decide
theorem witness_FilterStepsDownAtEquality_floor :
    (blockOf 0 0 0 0 0 2 2).flame = (blockOf 0 0 0 0 0 2 2).flameprime ∧
    (blockOf 0 0 0 0 0 2 2).flameprime ≤ Config.hardware.agility := by decide
theorem witness_FilterStepsDownAtEquality_alternates :
    (blockOf 0 0 0 0 0 254 254).flame = (blockOf 0 0 0 0 0 254 254).flameprime ∧
    (blockOf 0 0 0 0 0 254 254).flameprime > Config.hardware.agility ∧ Config.hardware.agility > 0 ∧
    (blockOf 0 0 0 0 0 254 254).flame < 255 ∧ (255 : Byte) ≥ (blockOf 0 0 0 0 0 254 254).flame := by decide

theorem witness_OutputRangeOfTheFilter_rises :
    (filterUpdate Config.hardware (blockOf 0 0 0 0 0 255 252)).flameprime > (blockOf 0 0 0 0 0 255 252).flameprime := by
  decide
theorem witness_OutputRangeOfTheFilter_falls :
    (filterUpdate Config.hardware (blockOf 0 0 0 0 0 0 3)).flameprime < (blockOf 0 0 0 0 0 0 3).flameprime := by decide
theorem witness_OutputRangeOfTheFilter_agility : { Config.hardware with agility := 0 }.agility = 0 ∧
    { Config.hardware with agility := 255 }.agility = 255 := by decide

theorem witness_InitPutsTheBlockInTheZeroState : (stateOf Block.zero).block = Block.zero := by decide

theorem witness_OutputPlateauHoldsUntilACollapse :
    (stateOf (blockOf 0 0 0 0 0 255 254)).block.flame = 255 ∧
    (stateOf (blockOf 0 0 0 0 0 255 254)).block.flameprime = 254 ∧
    ¬ collapses Config.hardware (windUpdate Config.hardware (stateOf (blockOf 0 0 0 0 0 255 254)).block) := by decide

theorem witness_CornerConfigurationsBehaveAsStated : { Config.hardware with var := 0 }.var = 0 ∧
    { Config.hardware with var := 255 }.var = 255 ∧ { Config.hardware with calm := 8 }.calm ≥ 8 := by decide

/-- The block after STEP 203 of V-STEP-2 meets the invariant, and a step from it has a next state. -/
theorem witness_EveryStepKeepsTheBlockReachable :
    (stateOf (blockOf 155 135 250 222 219 203 204)).block.Reachable ∧
    ∃ t, step (stateOf (blockOf 155 135 250 222 219 203 204)) = .next t :=
  ⟨⟨by decide, by decide, by decide, by decide⟩, _, rfl⟩
theorem witness_StepFromAReachableBlockKeepsTheRanges : (stateOf Block.zero).block.Reachable :=
  ⟨by decide, by decide, by decide, by decide⟩

theorem witness_CounterHoldsTheDrawsSinceReset :
    dutiful [.command 0b01#2, .powerOn, .command 0b01#2, .command 0b00#2] = true := by decide

/-- 416 draws since reset before this STEP after V-STEP-2's 205th: `x` is 160. -/
theorem witness_EveryEventKeepsTheCounterEqualToTheDraws_event :
    (stateOf (blockOf 160 156 192 12 217 12 200)).block.x.toNat = 416 % 256 ∧
    ∃ t, perform (.command 0b01#2) (stateOf (blockOf 160 156 192 12 217 12 200)) = .next t :=
  ⟨by decide, _, rfl⟩
theorem witness_EveryEventKeepsTheCounterEqualToTheDraws_step :
    (stateOf (blockOf 160 156 192 12 217 12 200)).block.x.toNat = 416 % 256 ∧
    (∃ t, step (stateOf (blockOf 160 156 192 12 217 12 200)) = .next t) ∧
    State.reset.block.x.toNat = 256 % 256 ∧ ∃ t, step State.reset = .next t :=
  ⟨by decide, ⟨_, rfl⟩, by decide, _, rfl⟩

theorem witness_CommandsSinceTheLastResetDecideEverything :
    dutiful [.command 0b01#2, .command 0b00#2] = true ∧ isReset (.command 0b10#2) := by decide

theorem witness_CommandsTakeEffectInIssueOrder :
    2 ≤ [HostEvent.command 0b01#2, HostEvent.command 0b10#2].length := by decide

theorem witness_DutifulStreamsAndOnlyTheyComplete : dutiful [.powerOn, .command 0b10#2, .command 0b01#2] = true := by
  decide

theorem witness_ReservedCodeIsRefusedForGood :
    (State.awaiting Block.zero [.command 0b11#2]).pending = .command 0b11#2 :: [] ∧
    dutiful [.command 0b10#2, .command 0b01#2] = true ∧
    3 > [HostEvent.command 0b10#2, HostEvent.command 0b01#2].length ∧
    HostEvent.command 0b11#2 ∈ [HostEvent.command 0b10#2, .command 0b01#2, .command 0b11#2] := by decide

theorem witness_OverlapIsAFaultForGood : dutiful [.command 0b01#2] = true ∧ 2 > [HostEvent.command 0b01#2].length ∧
    HostEvent.overlap 0b01#2 0b01#2 ∈ [HostEvent.command 0b01#2, .overlap 0b01#2 0b01#2] := by decide

theorem witness_PowerLossKeepsNoState : dutiful [.command 0b01#2] = true ∧ 2 > [HostEvent.command 0b01#2].length := by
  decide

theorem witness_AssemblyIgnoresCaseCommentsAndBlankLines :
    ['s', 'T', 'e', 'P'].map Char.toUpper = ['S', 't', 'E', 'p'].map Char.toUpper ∧
    (∀ ch ∈ [' ', '\t'], isBlank ch = true) := ⟨rfl, by simp [isBlank]⟩

theorem witness_StepsExpandsToThatManyStepCommands :
    ['0', '1', '2'] ≠ [] ∧ ∀ ch ∈ ['0', '1', '2'], ch.isDigit = true := ⟨by simp, by simp [Char.isDigit]⟩

end Sys2Proof.Tests
end

section
/-! SUPPORT. The block and the rules' own arithmetic: each micro-operation of STEP commutes with reading the registers
as natural numbers (00_scope.md R9), at every configuration; and so does any number of STEPs. -/

namespace Sys2Proof.Machine

theorem Block.setWind_tuple (S : Block) (v : Byte) : (S.setWind v).tuple = { S.tuple with wind := v.toNat } := rfl
theorem Block.setFlame_tuple (S : Block) (v : Byte) : (S.setFlame v).tuple = { S.tuple with flame := v.toNat } := rfl
theorem Block.setFlameprime_tuple (S : Block) (v : Byte) :
    (S.setFlameprime v).tuple = { S.tuple with flameprime := v.toNat } := rfl

/-- Steps 1 and 2 of `Tuple.windUpdate` (41_wind.md R48). -/
def Tuple.drawGust (p : Config) (T : Tuple) : Tuple :=
  if T.draw.c < p.var.toNat then
    if T.draw.draw.c > 220 then { T.draw.draw.draw with wind := T.draw.draw.draw.c } else T.draw.draw
  else T.draw

/-- Step 3 of `Tuple.windUpdate` (41_wind.md R48). -/
def Tuple.relax (p : Config) (T : Tuple) : Tuple :=
  if T.wind > p.base.toNat then { T with wind := T.wind - 1 } else T

/-- Step 1 of `Tuple.flameUpdate` (42_flame.md R53). -/
def Tuple.grow (T : Tuple) : Tuple := if T.flame < 255 then { T with flame := T.flame + 1 } else T

/-- Step 2 of `Tuple.flameUpdate` (42_flame.md R53). -/
def Tuple.collapse (p : Config) (T : Tuple) : Tuple :=
  if T.draw.c < T.draw.wind / 2 ^ p.calm then { T.draw.draw with flame := T.draw.draw.c } else T.draw

theorem Tuple.windUpdate_eq (p : Config) (T : Tuple) : T.windUpdate p = (T.drawGust p).relax p := rfl

theorem Tuple.flameUpdate_eq (p : Config) (T : Tuple) : T.flameUpdate p = T.grow.collapse p := rfl

theorem draw_tuple (S : Block) : (draw S).tuple = S.tuple.draw := by
  simp [Block.tuple, Tuple.draw, draw, Nat.shiftRight_eq_div_pow]

theorem collapseThreshold_toNat (p : Config) (wind : Byte) :
    (collapseThreshold p wind).toNat = wind.toNat / 2 ^ p.calm := by
  rw [collapseThreshold, BitVec.toNat_ushiftRight, Nat.shiftRight_eq_div_pow]

/-- The two spellings of the collapse condition, on words and on natural numbers. -/
theorem knocksDown_draw_iff_collapses (p : Config) (S : Block) : knocksDown p S (draw S).c ↔ collapses p S := by
  rw [knocksDown, BitVec.lt_def, collapseThreshold_toNat]; rfl

theorem drawGust_tuple (p : Config) (S : Block) : (drawGust p S).tuple = S.tuple.drawGust p := by
  simp only [Tuple.drawGust, ← draw_tuple]
  obtain ⟨h1, -, e⟩ | ⟨h1, h2, -, e⟩ | ⟨h1, h2, -, e⟩ := drawGust_cases p S
  · have not_eligible : ¬ (draw S).tuple.c < p.var.toNat := h1
    rw [e, if_neg not_eligible]
  · have eligible : (draw S).tuple.c < p.var.toNat := h1
    have not_gusty : ¬ (draw (draw S)).tuple.c > 220 := h2
    rw [e, if_pos eligible, if_neg not_gusty]
  · have eligible : (draw S).tuple.c < p.var.toNat := h1
    have gusty : (draw (draw S)).tuple.c > 220 := h2
    rw [e, if_pos eligible, if_pos gusty, Block.setWind_tuple]; rfl

theorem relax_tuple (p : Config) (S : Block) : (relax p S).tuple = S.tuple.relax p := by
  obtain ⟨h, e⟩ | ⟨h, e⟩ := relax_cases p S
  · have above : S.tuple.wind > p.base.toNat := h
    have no_wrap : (S.wind - 1).toNat = S.wind.toNat - 1 := by bv_omega
    rw [e, Tuple.relax, if_pos above, Block.setWind_tuple, no_wrap]; rfl
  · have not_above : ¬ S.tuple.wind > p.base.toNat := h
    rw [e, Tuple.relax, if_neg not_above]

theorem windUpdate_tuple (p : Config) (S : Block) : (windUpdate p S).tuple = S.tuple.windUpdate p := by
  rw [windUpdate, relax_tuple, drawGust_tuple, Tuple.windUpdate_eq]

theorem grow_tuple (S : Block) : (grow S).tuple = S.tuple.grow := by
  rw [grow_eq_setFlame, Block.setFlame_tuple, Tuple.grow]
  by_cases h : S.flame < 255
  · have below : S.tuple.flame < 255 := h
    have no_wrap : (S.flame + 1).toNat = S.flame.toNat + 1 := by bv_omega
    rw [if_pos h, if_pos below, no_wrap]; rfl
  · have not_below : ¬ S.tuple.flame < 255 := h
    rw [if_neg h, if_neg not_below]; rfl

theorem collapse_tuple (p : Config) (S : Block) : (collapse p S).tuple = S.tuple.collapse p := by
  simp only [Tuple.collapse, ← draw_tuple]
  obtain ⟨h, -, e⟩ | ⟨h, -, e⟩ := collapse_cases p S
  · have not_below : ¬ (draw S).tuple.c < (draw S).tuple.wind / 2 ^ p.calm :=
      mt (knocksDown_draw_iff_collapses p S).2 h
    rw [e, if_neg not_below]
  · have below : (draw S).tuple.c < (draw S).tuple.wind / 2 ^ p.calm := (knocksDown_draw_iff_collapses p S).1 h
    rw [e, if_pos below, Block.setFlame_tuple]; rfl

theorem flameUpdate_tuple (p : Config) (S : Block) : (flameUpdate p S).tuple = S.tuple.flameUpdate p := by
  rw [flameUpdate, collapse_tuple, grow_tuple, Tuple.flameUpdate_eq]

theorem filterUpdate_tuple (p : Config) (S : Block) : (filterUpdate p S).tuple = S.tuple.filterUpdate p := by
  rw [Tuple.filterUpdate]
  obtain ⟨h, g, e⟩ | ⟨h, g, e⟩ | ⟨h, g, e⟩ | ⟨h, g, e⟩ := filterUpdate_cases p S
  · have no_wrap : (S.flameprime + p.agility).toNat = S.flameprime.toNat + p.agility.toNat := by bv_omega
    rw [e, if_pos (show S.tuple.flame > S.tuple.flameprime from h),
      if_pos (show S.tuple.flameprime < 255 - p.agility.toNat from g), Block.setFlameprime_tuple, no_wrap]; rfl
  · rw [e, if_pos (show S.tuple.flame > S.tuple.flameprime from h),
      if_neg (show ¬ S.tuple.flameprime < 255 - p.agility.toNat from g)]
  · have no_wrap : (S.flameprime - p.agility).toNat = S.flameprime.toNat - p.agility.toNat := by bv_omega
    rw [e, if_neg (show ¬ S.tuple.flame > S.tuple.flameprime from h),
      if_pos (show S.tuple.flameprime > p.agility.toNat from g), Block.setFlameprime_tuple, no_wrap]; rfl
  · rw [e, if_neg (show ¬ S.tuple.flame > S.tuple.flameprime from h),
      if_neg (show ¬ S.tuple.flameprime > p.agility.toNat from g)]

theorem stepBlock_tuple (p : Config) (S : Block) : (stepBlock p S).tuple = S.tuple.step p := by
  rw [stepBlock, filterUpdate_tuple, flameUpdate_tuple, windUpdate_tuple, Tuple.step]

/-- Settles O26: one STEP commutes with reading the registers as numbers, so by induction `n` of them do. -/
theorem stepAgreesWithTheArithmeticAtEveryConfiguration :
    Obligations.StepAgreesWithTheArithmeticAtEveryConfiguration := by
  intro p n
  induction n with
  | zero => exact fun S => rfl
  | succ n ih =>
    intro S
    rw [stepTimes, ih, stepBlock_tuple, Function.iterate_succ_apply]

end Sys2Proof.Machine
end

section
/-! SUPPORT. The corner values of the tuning constants (00_scope.md R6; off the reference values, 92_eei_decisions.md D12,
log entry 7), each from a fact about every configuration. -/

namespace Sys2Proof.Machine

/-- WIND_UPDATE stops at its first draw exactly if that draw is not below `VAR` (41_wind.md R49). -/
theorem windDrawCount_eq_one_iff (p : Config) (S : Block) :
    windDrawCount p S = 1 ↔ ¬ gustEligible p (drawTimes 1 S).c := by
  obtain ⟨h, n, -⟩ | ⟨h, -, n, -⟩ | ⟨h, -, n, -⟩ := drawGust_cases p S <;> simp [n, h]

/-- Without a collapse `flame` grows by 1, as far as 255 (42_flame.md R57). -/
theorem flameUpdate_flame_of_not_collapses {p : Config} {S : Block} (h : ¬ collapses p S) :
    (flameUpdate p S).flame.toNat = min 255 (S.flame.toNat + 1) := by
  rw [← knocksDown_draw_iff_collapses] at h
  obtain ⟨-, -, e⟩ | ⟨h', -, -⟩ := flameUpdate_cases p S
  · rw [e, Block.setFlame_flame]
    split <;> bv_omega
  · exact absurd h' h

/-- A shift of 8 or more leaves nothing of `wind`, so no draw is below the threshold. -/
theorem not_collapses_of_calm_ge_eight {p : Config} (h : p.calm ≥ 8) (S : Block) : ¬ collapses p S := by
  have wind_lt : S.wind.toNat < 2 ^ p.calm := S.wind.isLt.trans_le (Nat.pow_le_pow_right two_pos h)
  rw [collapses, Nat.div_eq_of_lt wind_lt]
  exact Nat.not_lt_zero _

/-- Settles O32: no byte is below 0, only 255 is not below 255, and a shift by 8 or more gives 0. -/
theorem cornerConfigurationsBehaveAsStated : Obligations.CornerConfigurationsBehaveAsStated := by
  refine ⟨fun p S hvar => ?_, fun p S hvar => ?_, fun p S hcalm => ?_⟩
  · have not_eligible : ¬ gustEligible p (drawTimes 1 S).c := by simp [gustEligible, hvar]
    exact ⟨fun ⟨eligible, _⟩ => not_eligible eligible, (windDrawCount_eq_one_iff p S).2 not_eligible⟩
  · rw [windDrawCount_eq_one_iff, gustEligible, hvar]
    bv_omega
  · have no_collapse := not_collapses_of_calm_ge_eight hcalm S
    exact ⟨no_collapse, flameUpdate_flame_of_not_collapses no_collapse⟩

end Sys2Proof.Machine
end

section
/-! SUPPORT. What each part of the block writes (10_state.md R15): the generator moves by whole draws, and an event with a
next state is one of four. -/

namespace Sys2Proof.Machine

/-- WIND_UPDATE moves the generator by exactly the draws it counts (41_wind.md R49). -/
theorem windUpdate_sameGenerator (p : Config) (S : Block) :
    sameGenerator (windUpdate p S) (drawTimes (windDrawCount p S) S) := by
  rw [windUpdate, relax_eq_setWind]
  obtain ⟨-, n, e⟩ | ⟨-, -, n, e⟩ | ⟨-, -, n, e⟩ := drawGust_cases p S <;> simp [sameGenerator, n, e]

/-- FLAME_UPDATE moves the generator by exactly the draws it counts (42_flame.md R55). -/
theorem flameUpdate_sameGenerator (p : Config) (S : Block) :
    sameGenerator (flameUpdate p S) (drawTimes (flameDrawCount p S) S) := by
  obtain ⟨-, n, e⟩ | ⟨-, n, e⟩ := flameUpdate_cases p S <;> simp [sameGenerator, n, e]

/-- FILTER_UPDATE makes no draw (43_filter.md R58). -/
theorem filterUpdate_sameGenerator (p : Config) (S : Block) : sameGenerator (filterUpdate p S) S :=
  ⟨filterUpdate_x p S, filterUpdate_a p S, filterUpdate_b p S, filterUpdate_c p S⟩

/-- All that an event with a next state can do: it takes nothing off the stream, and it is one of four. -/
theorem perform_next_cases {e : HostEvent} {s t : State} (h : perform e s = .next t) :
    t.pending = s.pending ∧
      ((e = .command 0b00#2 ∧ t.block = s.block) ∨
       (e = .command 0b01#2 ∧ t.block = stepBlock Config.hardware s.block) ∨
       (e = .command 0b10#2 ∧ t.block = Block.zero) ∨
       (e = .powerOn ∧ t.block = Block.zero)) := by
  have as_step : step (s.setPending (e :: s.pending)) = .next t := h
  obtain ⟨hp, -⟩ | ⟨e', rest, hp, ht, effect⟩ := step_next_cases as_step
  · cases hp
  · cases hp
    exact ⟨ht, effect⟩

/-- Settles O10: the four frames, and of the events with a next state only NOP is none of the three named. -/
theorem onlyTheNamedWriterWritesARegister : Obligations.OnlyTheNamedWriterWritesARegister := by
  refine ⟨fun S => ?_, fun p S => ?_, fun p S => ?_, fun p S => ?_, fun e s t h changed => ?_⟩
  · exact ⟨draw_wind S, draw_flame S, draw_flameprime S⟩
  · exact ⟨⟨_, windUpdate_sameGenerator p S⟩, windUpdate_flame p S, windUpdate_flameprime p S⟩
  · exact ⟨⟨_, flameUpdate_sameGenerator p S⟩, flameUpdate_wind p S, flameUpdate_flameprime p S⟩
  · exact ⟨filterUpdate_sameGenerator p S, filterUpdate_wind p S, filterUpdate_flame p S⟩
  · obtain ⟨-, ⟨-, same⟩ | ⟨he, -⟩ | ⟨he, -⟩ | ⟨he, -⟩⟩ := perform_next_cases h
    · exact absurd same changed
    · exact .inl he
    · exact .inr (.inl he)
    · exact .inr (.inr he)

end Sys2Proof.Machine
end

section
/-! SUPPORT. Reset, and the invariant of the reachable blocks (10_state.md R23, R24 items 2 to 4). -/

namespace Sys2Proof.Machine

/-- Settles O1: the power-on event clears the block and touches nothing else. -/
theorem resetIsTheZeroState : Obligations.ResetIsTheZeroState :=
  ⟨rfl, rfl, fun s => ⟨s.setBlock Block.zero, perform_powerOn s, rfl, rfl, rfl⟩⟩

theorem Block.zero_reachable : Block.zero.Reachable where
  even_output := rfl
  zero_output := fun _ => rfl
  wind_below_255 := by decide
  flame_zero := fun _ => rfl

/-- Settles O33: the reset block is the zero state. -/
theorem reachableBlockAtReset : Obligations.ReachableBlockAtReset := Block.zero_reachable

/-- A `wind` of 255 is above `BASE` and is relaxed to 254 in the same STEP (41_wind.md R52). -/
theorem windUpdate_hardware_wind_ne_255 (S : Block) : (windUpdate Config.hardware S).wind ≠ 255 := by
  have hbase : Config.hardware.base = 30 := rfl
  rw [windUpdate_wind, hbase]
  split <;> bv_omega

/-- FLAME_UPDATE leaves a `flame` of at least 1, by growth, or the value its collapse drew, which the generator
then still holds as `c` (42_flame.md R57). -/
theorem flameUpdate_flame_cases (p : Config) (S : Block) :
    (flameUpdate p S).flame ≥ 1 ∨
    (collapses p S ∧ (flameUpdate p S).flame = collapseValue S ∧ (flameUpdate p S).c = collapseValue S) := by
  obtain ⟨-, -, e⟩ | ⟨h, -, e⟩ := flameUpdate_cases p S
  · left
    rw [e, Block.setFlame_flame]
    split <;> bv_omega
  · exact .inr ⟨(knocksDown_draw_iff_collapses p S).1 h, by rw [e]; rfl, by rw [e]; rfl⟩

/-- FILTER_UPDATE takes an even output to an even output from 2 to 254 (43_filter.md R61), provided that an output of 0
has a flame above it to rise to. -/
theorem filterUpdate_hardware_output_range {S : Block} (even : S.flameprime.toNat % 2 = 0)
    (rises_from_zero : S.flameprime = 0 → S.flame > 0) :
    (filterUpdate Config.hardware S).flameprime.toNat % 2 = 0 ∧
      2 ≤ (filterUpdate Config.hardware S).flameprime ∧ (filterUpdate Config.hardware S).flameprime ≤ 254 := by
  have ways := filterUpdate_cases Config.hardware S
  rw [show Config.hardware.agility = 2 from rfl] at ways
  obtain ⟨-, below_limit, e⟩ | ⟨-, at_limit, e⟩ | ⟨-, above_floor, e⟩ | ⟨not_above, at_floor, e⟩ := ways <;> rw [e]
  · rw [Block.setFlameprime_flameprime]
    bv_omega
  · bv_omega
  · rw [Block.setFlameprime_flameprime]
    bv_omega
  · have not_zero : S.flameprime ≠ 0 := fun zero => not_above (zero ▸ rises_from_zero zero)
    bv_omega

/-- The first STEP after reset grows `flame` to 1: its second draw is no gust, so `wind` is 0 and nothing collapses. -/
theorem flameUpdate_windUpdate_zero_flame :
    (flameUpdate Config.hardware (windUpdate Config.hardware Block.zero)).flame = 1 := by decide

/-- After a STEP from a reachable block the output is even and from 2 to 254 (10_state.md R24 item 2). -/
theorem stepBlock_output_range {S : Block} (h : S.Reachable) :
    (stepBlock Config.hardware S).flameprime.toNat % 2 = 0 ∧
      2 ≤ (stepBlock Config.hardware S).flameprime ∧ (stepBlock Config.hardware S).flameprime ≤ 254 := by
  apply filterUpdate_hardware_output_range
  · simpa using h.even_output
  · simp only [flameUpdate_flameprime, windUpdate_flameprime]
    intro zero
    rw [h.zero_output zero, flameUpdate_windUpdate_zero_flame]
    decide

/-- Whatever the block before, a STEP leaves no `wind` of 255 (10_state.md R24 item 3). -/
theorem stepBlock_hardware_wind_ne_255 (S : Block) : (stepBlock Config.hardware S).wind ≠ 255 := by
  simpa [stepBlock] using windUpdate_hardware_wind_ne_255 S

/-- Whatever the block before, `flame` is at least 1 after a STEP or is what its collapse drew last (10_state.md R24
item 4). -/
theorem stepBlock_flame_cases (p : Config) (S : Block) :
    (stepBlock p S).flame ≥ 1 ∨ (collapses p (windUpdate p S) ∧
      (stepBlock p S).flame = collapseValue (windUpdate p S) ∧ (stepBlock p S).c = collapseValue (windUpdate p S)) := by
  simpa [stepBlock] using flameUpdate_flame_cases p (windUpdate p S)

/-- STEP keeps the invariant. The output is not 0 afterwards, so nothing is claimed of the zero state. -/
theorem stepBlock_reachable {S : Block} (h : S.Reachable) : (stepBlock Config.hardware S).Reachable := by
  obtain ⟨even, ge_two, -⟩ := stepBlock_output_range h
  refine ⟨even, fun zero => ?_, stepBlock_hardware_wind_ne_255 S, fun zero => ?_⟩
  · rw [zero] at ge_two
    exact absurd ge_two (by decide)
  · obtain ge_one | ⟨-, flame_drawn, c_drawn⟩ := stepBlock_flame_cases Config.hardware S
    · rw [zero] at ge_one
      exact absurd ge_one (by decide)
    · rw [c_drawn, ← flame_drawn, zero]

/-- Settles O34: an idle step and NOP keep the block, STEP keeps the invariant, and both resets give the zero state. -/
theorem everyStepKeepsTheBlockReachable : Obligations.EveryStepKeepsTheBlockReachable := by
  intro s t h hstep
  obtain ⟨-, rfl⟩ | ⟨e, rest, -, -, ⟨-, ht⟩ | ⟨-, ht⟩ | ⟨-, ht⟩ | ⟨-, ht⟩⟩ := step_next_cases hstep
  · exact h
  · exact ht ▸ h
  · exact ht ▸ stepBlock_reachable h
  · exact ht ▸ Block.zero_reachable
  · exact ht ▸ Block.zero_reachable

/-- Settles O35: the ranges of the block STEP leaves, read off its next state. -/
theorem stepFromAReachableBlockKeepsTheRanges : Obligations.StepFromAReachableBlockKeepsTheRanges := by
  intro s h
  obtain ⟨even, ge_two, le_254⟩ := stepBlock_output_range h
  refine ⟨s.setBlock (stepBlock Config.hardware s.block), rfl, even, ge_two, le_254,
    stepBlock_hardware_wind_ne_255 s.block, ?_⟩
  obtain ge_one | ⟨collapsed, flame_drawn, -⟩ := stepBlock_flame_cases Config.hardware s.block
  · exact .inl ge_one
  · by_cases drew_zero : collapseValue (windUpdate Config.hardware s.block) = 0
    · exact .inr ⟨collapsed, drew_zero⟩
    · left
      rw [State.setBlock_block, flame_drawn]
      bv_omega

end Sys2Proof.Machine
end

section
/-! SUPPORT. The entropy counter `x` holds the draws since the last reset, modulo 256 (10_state.md R24 item 5,
40_entropy.md R46 item 1): for one event, and so for every stream. -/

namespace Sys2Proof.Machine

/-- Each draw adds 1 to `x`. -/
theorem drawTimes_x_toNat (n : Nat) (S : Block) : (drawTimes n S).x.toNat = (S.x.toNat + n) % 256 := by
  induction n generalizing S with
  | zero => rw [drawTimes_zero, Nat.add_zero, Nat.mod_eq_of_lt S.x.isLt]
  | succ n ih =>
    have one_more : (draw S).x.toNat = (S.x.toNat + 1) % 256 := by rw [draw_x, BitVec.toNat_add]; rfl
    rw [drawTimes_succ, ih, one_more]
    omega

/-- STEP adds its draws to `x`: those of WIND_UPDATE, then those of FLAME_UPDATE, and FILTER_UPDATE makes none. -/
theorem stepBlock_x_toNat (p : Config) (S : Block) :
    (stepBlock p S).x.toNat = (S.x.toNat + stepDrawCount p S) % 256 := by
  rw [stepBlock, filterUpdate_x, (flameUpdate_sameGenerator p _).1, drawTimes_x_toNat,
    (windUpdate_sameGenerator p S).1, drawTimes_x_toNat, stepDrawCount]
  omega

/-- An event with a next state keeps `x` equal to the count. -/
theorem perform_keeps_counter {e : HostEvent} {s t : State} {n : Nat} (hx : s.block.x.toNat = n % 256)
    (h : perform e s = .next t) : t.block.x.toNat = countAfterEvent e s.block n % 256 := by
  obtain ⟨-, ⟨rfl, ht⟩ | ⟨rfl, ht⟩ | ⟨rfl, ht⟩ | ⟨rfl, ht⟩⟩ := perform_next_cases h <;> rw [ht]
  · exact hx
  · have count : countAfterEvent (.command 0b01#2) s.block n = n + stepDrawCount Config.hardware s.block := rfl
    rw [stepBlock_x_toNat, hx, count, Nat.mod_add_mod]
  · rfl
  · rfl

/-- Settles O47: a step is idle or performs the event at the head of the stream. -/
theorem everyEventKeepsTheCounterEqualToTheDraws : Obligations.EveryEventKeepsTheCounterEqualToTheDraws := by
  refine ⟨fun e s t n hx h => perform_keeps_counter hx h, fun s t n hx h => ?_⟩
  match hp : s.pending with
  | [] =>
    rw [step_idle s hp] at h
    cases h
    exact .inl ⟨rfl, hx⟩
  | e :: rest =>
    rw [step_cons s e rest hp] at h
    exact .inr ⟨e, rest, rfl, perform_keeps_counter (s := s.setPending rest) hx h⟩

/-- An event that keeps the host's duties has a next block, whatever else the host has still to do. -/
theorem perform_next_of_obeysDuties {e : HostEvent} (h : e.obeysDuties = true) (S : Block) :
    ∃ T, ∀ rest, perform e (State.awaiting S rest) = .next (State.awaiting T rest) := by
  cases e with
  | command code =>
    obtain rfl | rfl | rfl | rfl := code_cases code
    · exact ⟨S, fun _ => rfl⟩
    · exact ⟨stepBlock Config.hardware S, fun _ => rfl⟩
    · exact ⟨Block.zero, fun _ => rfl⟩
    · exact absurd h (by decide)
  | overlap first second => exact absurd h Bool.false_ne_true
  | powerOn => exact ⟨Block.zero, fun _ => rfl⟩
  | powerLoss during => exact absurd h Bool.false_ne_true

/-- After an event with a next state the stream goes on from the block it left. -/
theorem finalBlock_cons_of_next {e : HostEvent} {rest : List HostEvent} {S T : Block}
    (h : perform e (State.awaiting S rest) = .next (State.awaiting T rest)) :
    finalBlock (e :: rest) S = finalBlock rest T := by
  rw [finalBlock, finalBlock, List.length_cons, run_succ_of_next _ ((step_awaiting S e rest).trans h)]

/-- After an event with a next state the count goes on from the one it left. -/
theorem drawsSinceReset_cons_of_next {e : HostEvent} {S T : Block}
    (h : perform e (State.awaiting S []) = .next (State.awaiting T [])) (rest : List HostEvent) (n : Nat) :
    drawsSinceReset (e :: rest) S n = drawsSinceReset rest T (countAfterEvent e S n) := by
  rw [State.awaiting] at h
  rw [drawsSinceReset, h]; rfl

/-- A dutiful stream has a final block, and keeps `x` equal to the count, from any block whose `x` starts so. -/
theorem finalBlock_x_of_dutiful {events : List HostEvent} (duty : dutiful events = true) {S : Block} {n : Nat}
    (hx : S.x.toNat = n % 256) :
    ∃ T, finalBlock events S = some T ∧ T.x.toNat = drawsSinceReset events S n % 256 := by
  induction events generalizing S n with
  | nil => exact ⟨S, rfl, hx⟩
  | cons e rest ih =>
    obtain ⟨duty_e, duty_rest⟩ : e.obeysDuties = true ∧ dutiful rest = true := by simpa [dutiful] using duty
    obtain ⟨T, goes_on⟩ := perform_next_of_obeysDuties duty_e S
    rw [finalBlock_cons_of_next (goes_on rest), drawsSinceReset_cons_of_next (goes_on [])]
    exact ih duty_rest (perform_keeps_counter hx (goes_on []))

/-- Settles O36: at reset no draw has been made and `x` is 0. -/
theorem counterHoldsTheDrawsSinceReset : Obligations.CounterHoldsTheDrawsSinceReset :=
  fun _ duty => finalBlock_x_of_dutiful duty rfl

end Sys2Proof.Machine
end

section
/-! SUPPORT. Events take effect in the order issued (20_memory.md R31): a code runs as the command it decodes to, an event
does not look at what is issued after it, so streams compose, and the first that breaks the host's duties ends the run. -/

namespace Sys2Proof.Machine

theorem issue_of_decode {code : Code} {i : Instr} (h : decode code = .ok i) (s : State) : issue code s = exec i s := by
  rw [issue, h]

/-- Settles O4: the step performs the event at the head of the stream, and to perform a code is to run its command. -/
theorem stepRunsTheDecodedCommand : Obligations.StepRunsTheDecodedCommand := by
  intro s code rest i hp hdecode
  rw [step_cons s _ rest hp, perform_command, issue_of_decode hdecode]; rfl

/-- An event that breaks the host's duties, or comes with a loss of power, stops every state in one and the same way. -/
theorem perform_stops_of_not_obeysDuties {e : HostEvent} (h : e.obeysDuties = false) :
    (∃ r, ∀ s, perform e s = .fault r) ∨ (∃ r, ∀ s, perform e s = .refused r) := by
  cases e with
  | command code =>
    have reserved : code = 0b11#2 := by simpa [HostEvent.obeysDuties, codeWellFormed] using h
    exact .inr ⟨_, fun s => reserved ▸ issue_reserved s⟩
  | overlap first second => exact .inl ⟨_, perform_overlap first second⟩
  | powerOn => exact absurd h.symm Bool.false_ne_true
  | powerLoss during => exact .inl ⟨_, perform_powerLoss during⟩

/-- A stream whose first event stops the machine has no final block. -/
theorem finalBlock_cons_of_not_obeysDuties {e : HostEvent} (h : e.obeysDuties = false) (rest : List HostEvent)
    (S : Block) : finalBlock (e :: rest) S = none := by
  rw [finalBlock, List.length_cons]
  obtain ⟨r, stops⟩ | ⟨r, stops⟩ := perform_stops_of_not_obeysDuties h
  · rw [run_succ_of_fault _ ((step_awaiting S e rest).trans (stops _))]
  · rw [run_succ_of_refused _ ((step_awaiting S e rest).trans (stops _))]

/-- After an event with a next state `out` shows the block it left, and the outputs go on from there. -/
theorem outsAfter_awaiting_cons_of_next {e : HostEvent} {rest : List HostEvent} {S T : Block}
    (h : perform e (State.awaiting S rest) = .next (State.awaiting T rest)) (k : Nat) :
    outsAfter (k + 1) (State.awaiting S (e :: rest)) = T.flameprime :: outsAfter k (State.awaiting T rest) := by
  rw [outsAfter, step_awaiting, h]; rfl

/-- An event that stops the machine shows no output. -/
theorem outsAfter_awaiting_cons_of_not_obeysDuties {e : HostEvent} (h : e.obeysDuties = false) (rest : List HostEvent)
    (S : Block) (k : Nat) : outsAfter k (State.awaiting S (e :: rest)) = [] := by
  cases k with
  | zero => rfl
  | succ k =>
    obtain ⟨r, stops⟩ | ⟨r, stops⟩ := perform_stops_of_not_obeysDuties h <;>
      rw [outsAfter, step_awaiting, stops]

/-- A stream after another starts from the block the other left, if it left one. -/
theorem finalBlock_append (first second : List HostEvent) (S : Block) :
    finalBlock (first ++ second) S = (finalBlock first S).bind (finalBlock second) := by
  induction first generalizing S with
  | nil => rfl
  | cons e first ih =>
    rw [List.cons_append]
    cases duty : e.obeysDuties with
    | true =>
      obtain ⟨T, goes_on⟩ := perform_next_of_obeysDuties duty S
      rw [finalBlock_cons_of_next (goes_on _), finalBlock_cons_of_next (goes_on _), ih]
    | false =>
      rw [finalBlock_cons_of_not_obeysDuties duty, finalBlock_cons_of_not_obeysDuties duty, Option.bind_none]

/-- The outputs during a stream do not depend on what is issued after it. -/
theorem outsAfter_append (first second : List HostEvent) (S : Block) {k : Nat} (hk : k ≤ first.length) :
    outsAfter k (State.awaiting S (first ++ second)) = outsAfter k (State.awaiting S first) := by
  induction first generalizing S k with
  | nil =>
    rw [Nat.le_zero.1 hk]; rfl
  | cons e first ih =>
    rw [List.cons_append]
    cases duty : e.obeysDuties with
    | true =>
      obtain ⟨T, goes_on⟩ := perform_next_of_obeysDuties duty S
      cases k with
      | zero => rfl
      | succ k =>
        rw [outsAfter_awaiting_cons_of_next (goes_on _), outsAfter_awaiting_cons_of_next (goes_on _),
          ih T (Nat.le_of_succ_le_succ hk)]
    | false =>
      rw [outsAfter_awaiting_cons_of_not_obeysDuties duty, outsAfter_awaiting_cons_of_not_obeysDuties duty]

/-- Settles O38: both clauses by induction on the first stream, since no event reads the rest of it. -/
theorem commandsTakeEffectInIssueOrder : Obligations.CommandsTakeEffectInIssueOrder :=
  ⟨finalBlock_append, fun first second S _ hk => outsAfter_append first second S hk⟩

/-- A run comes through a dutiful stream to some block, and goes on from there with what was issued after it. -/
theorem run_append_of_dutiful {before : List HostEvent} (duty : dutiful before = true) (S : Block) :
    ∃ T, ∀ rest k, run (before.length + k) (State.awaiting S (before ++ rest)) = run k (State.awaiting T rest) := by
  induction before generalizing S with
  | nil => exact ⟨S, fun rest k => by rw [List.length_nil, Nat.zero_add, List.nil_append]⟩
  | cons e before ih =>
    obtain ⟨duty_e, duty_before⟩ : e.obeysDuties = true ∧ dutiful before = true := by simpa [dutiful] using duty
    obtain ⟨T, goes_on⟩ := perform_next_of_obeysDuties duty_e S
    obtain ⟨U, arrives⟩ := ih duty_before T
    refine ⟨U, fun rest k => ?_⟩
    have first_step : step (State.awaiting S (e :: (before ++ rest))) = .next (State.awaiting T (before ++ rest)) :=
      goes_on _
    rw [List.length_cons, Nat.succ_add, List.cons_append, run_succ_of_next _ first_step, arrives]

/-- A run that comes to an event which faults is faulted at every later number of steps. -/
theorem run_append_cons_of_fault {before : List HostEvent} {e : HostEvent} {r : Fault} {k : Nat}
    (duty : dutiful before = true) (faults : ∀ s, perform e s = .fault r) (hk : k > before.length)
    (rest : List HostEvent) (S : Block) : run k (State.awaiting S (before ++ e :: rest)) = .fault r := by
  obtain ⟨T, arrives⟩ := run_append_of_dutiful duty S
  obtain ⟨n, rfl⟩ : ∃ n, k = before.length + (n + 1) := Nat.exists_eq_add_of_lt hk
  rw [arrives, run_succ_of_fault n ((step_awaiting T e rest).trans (faults _))]

/-- A stream that holds an event which stops the machine has no final block, whatever stands before it. -/
theorem finalBlock_of_mem_not_obeysDuties {e : HostEvent} {events : List HostEvent} (h : e.obeysDuties = false)
    (mem : e ∈ events) (S : Block) : finalBlock events S = none := by
  obtain ⟨before, rest, rfl⟩ := List.append_of_mem mem
  rw [finalBlock_append, Option.bind_eq_none_iff]
  exact fun T _ => finalBlock_cons_of_not_obeysDuties h rest T

/-- Settles O41: an overlap faults in every state, and no stream goes on past an event that stops the machine. -/
theorem overlapIsAFaultForGood : Obligations.OverlapIsAFaultForGood :=
  ⟨fun c d _ rest S _ duty hk => run_append_cons_of_fault duty (perform_overlap c d) hk rest S,
    fun _ _ _ S mem => finalBlock_of_mem_not_obeysDuties rfl mem S⟩

end Sys2Proof.Machine
end

section
/-! SUPPORT. The opcode map (30_encoding.md R38), and the reserved code: refused, and for good (R39). -/

namespace Sys2Proof.Machine

/-- Settles O6: the map is read off at each of the four codes, and a code that decodes runs as its command. -/
theorem opcodeMapGivesEachCodeItsOneCommand : Obligations.OpcodeMapGivesEachCodeItsOneCommand := by
  refine ⟨fun code => ?_, by decide, rfl, rfl, rfl, rfl, fun s => ⟨issue_nop s, ?_, ?_, issue_reserved s⟩⟩
  · obtain rfl | rfl | rfl | rfl := code_cases code <;> exact ⟨_, rfl⟩
  · exact issue_of_decode (code := 0b01#2) (i := .step) rfl s
  · exact issue_of_decode (code := 0b10#2) (i := .init) rfl s

/-- A run that comes to an event which is refused is refused at every later number of steps. -/
theorem run_append_cons_of_refused {before : List HostEvent} {e : HostEvent} {r : Refusal} {k : Nat}
    (duty : dutiful before = true) (refuses : ∀ s, perform e s = .refused r) (hk : k > before.length)
    (rest : List HostEvent) (S : Block) : run k (State.awaiting S (before ++ e :: rest)) = .refused r := by
  obtain ⟨T, arrives⟩ := run_append_of_dutiful duty S
  obtain ⟨n, rfl⟩ := Nat.exists_eq_add_of_lt hk
  exact (arrives _ (n + 1)).trans (run_succ_of_refused n (refuses _))

/-- Settles O40: every state refuses the code, and no stream goes on past an event that stops the machine. -/
theorem reservedCodeIsRefusedForGood : Obligations.ReservedCodeIsRefusedForGood :=
  ⟨rfl, fun s rest hp => (step_cons s _ rest hp).trans (issue_reserved (s.setPending rest)),
    fun _ rest S _ duty hk => run_append_cons_of_refused (e := .command 0b11#2) duty issue_reserved hk rest S,
    fun _ S mem => finalBlock_of_mem_not_obeysDuties rfl mem S⟩

end Sys2Proof.Machine
end

section
/-! SUPPORT. The words of a line, and with them the listing of a stream of codes (30_encoding.md R41; log entry 12). -/

namespace Sys2Proof.Machine

theorem isBlank_iff (ch : Char) : isBlank ch = true ↔ ch = ' ' ∨ ch = '\t' ∨ ch = '\r' := by
  simp [isBlank, or_assoc]

/-- Characters that are no blanks join the word being read. -/
theorem wordsFrom_append {letters : List Char} (solid : ∀ ch ∈ letters, isBlank ch = false) (word rest : List Char) :
    wordsFrom word (letters ++ rest) = wordsFrom (word ++ letters) rest := by
  induction letters generalizing word with
  | nil => rw [List.nil_append, List.append_nil]
  | cons ch letters ih =>
    obtain ⟨solid_ch, solid⟩ := List.forall_mem_cons.1 solid
    rw [List.cons_append, wordsFrom, solid_ch, if_neg Bool.false_ne_true, ih solid, List.append_cons word ch letters]

/-- A text of one word. -/
theorem wordsFrom_word {word : List Char} (nonempty : word ≠ []) (solid : ∀ ch ∈ word, isBlank ch = false) :
    wordsFrom [] word = [word] := by
  have whole := wordsFrom_append solid [] []
  rw [List.append_nil, List.nil_append] at whole
  rw [whole, wordsFrom, List.isEmpty_eq_false_iff.2 nonempty, if_neg Bool.false_ne_true]

/-- A space ends a word. -/
theorem wordsFrom_word_space {word : List Char} (nonempty : word ≠ []) (solid : ∀ ch ∈ word, isBlank ch = false)
    (rest : List Char) : wordsFrom [] (word ++ ' ' :: rest) = word :: wordsFrom [] rest := by
  have space : isBlank ' ' = true := rfl
  rw [wordsFrom_append solid, List.nil_append, wordsFrom, if_pos space, List.isEmpty_eq_false_iff.2 nonempty,
    if_neg Bool.false_ne_true]

/-- Blanks hold no word. -/
theorem wordsFrom_blanks {line : List Char} (blank : ∀ ch ∈ line, isBlank ch = true) : wordsFrom [] line = [] := by
  induction line with
  | nil => rfl
  | cons ch line ih =>
    obtain ⟨blank_ch, blank⟩ := List.forall_mem_cons.1 blank
    rw [wordsFrom, if_pos blank_ch]
    exact ih blank

theorem isBlank_codeDigit (code : Code) : isBlank (codeDigit code) = false := by
  obtain rfl | rfl | rfl | rfl := code_cases code <;> rfl

theorem digitCode_codeDigit (code : Code) : digitCode [codeDigit code] = some code := by
  obtain rfl | rfl | rfl | rfl := code_cases code <;> rfl

/-- The words of a listing are its digits. -/
theorem wordsFrom_listing (codes : List Code) :
    wordsFrom [] (listing codes) = codes.map (fun code => [codeDigit code]) := by
  have solid (code : Code) : ∀ ch ∈ [codeDigit code], isBlank ch = false :=
    List.forall_mem_singleton.2 (isBlank_codeDigit code)
  induction codes with
  | nil => rfl
  | cons code rest ih =>
    cases rest with
    | nil => exact wordsFrom_word (List.cons_ne_nil _ _) (solid code)
    | cons next rest =>
      rw [List.map_cons, ← ih]
      exact wordsFrom_word_space (List.cons_ne_nil _ _) (solid code) _

/-- Digits read back as their codes. -/
theorem readDigits_codeDigits (codes : List Code) :
    readDigits (codes.map (fun code => [codeDigit code])) = some codes := by
  induction codes with
  | nil => rfl
  | cons code rest ih => rw [List.map_cons, readDigits, digitCode_codeDigit, ih]

/-- Settles O45: the words of the listing are the digits, and each digit reads back as its code. -/
theorem listingReadsBack : Obligations.ListingReadsBack := fun codes => by
  rw [readListing, wordsFrom_listing, readDigits_codeDigits]

end Sys2Proof.Machine
end

section
/-! SUPPORT. The lines of a command stream's text and what they assemble to (30_encoding.md R41, R42; log entry 12). -/

namespace Sys2Proof.Machine

/-- A comment is dropped from its `;` on. -/
theorem withoutComment_append_comment (line note : List Char) :
    withoutComment (line ++ ';' :: note) = withoutComment line := by
  rw [withoutComment, withoutComment, List.takeWhile_append, List.takeWhile_cons_of_neg (by decide), List.append_nil]
  split
  · next no_comment => exact ((List.takeWhile_prefix _).eq_of_length no_comment).symm
  · rfl

/-- A character that is no small letter and starts no comment: the assembler reads it as it stands. -/
abbrev plainChar (ch : Char) : Prop := ch.toUpper = ch ∧ ch ≠ ';'

/-- A line without small letters and without a comment is split into words as it stands. -/
theorem assembleLine_of_plain {line : List Char} (plain : ∀ ch ∈ line, plainChar ch) :
    assembleLine line = assembleWords (wordsFrom [] line) := by
  have capitals : line.map Char.toUpper = line :=
    (List.map_congr_left fun ch mem => (plain ch mem).1).trans (List.map_id line)
  have no_comment : withoutComment line = line :=
    List.takeWhile_eq_self_iff.2 fun ch mem => bne_iff_ne.2 (plain ch mem).2
  rw [assembleLine, capitals, no_comment]

/-- Settles O43: a line is read in capitals and without its comment, and blanks hold no word. -/
theorem assemblyIgnoresCaseCommentsAndBlankLines : Obligations.AssemblyIgnoresCaseCommentsAndBlankLines := by
  refine ⟨fun l m same => ?_, fun l note => ?_, fun l blank => ?_⟩
  · rw [assembleLine, assembleLine, same]
  · have semicolon : Char.toUpper ';' = ';' := rfl
    rw [assembleLine, assembleLine, List.map_append, List.map_cons, semicolon, withoutComment_append_comment]
  · have plain : ∀ ch ∈ l, plainChar ch := fun ch mem => by
      obtain rfl | rfl | rfl := (isBlank_iff ch).1 (blank ch mem) <;> decide
    rw [assembleLine_of_plain plain, wordsFrom_blanks blank]; rfl

/-- A line end ends a line. -/
theorem lines_append_newline {line : List Char} (one_line : '\n' ∉ line) (rest : List Char) :
    lines (line ++ '\n' :: rest) = line :: lines rest := by
  induction line with
  | nil => rfl
  | cons ch line ih =>
    obtain ⟨ch_ne, one_line⟩ := not_or.1 (mt List.mem_cons.2 one_line)
    rw [List.cons_append, lines, if_neg (by simpa using Ne.symm ch_ne), ih one_line]

theorem newline_not_mem_mnemonic (i : Instr) : '\n' ∉ mnemonic i := by
  cases i <;> decide

theorem assembleLine_mnemonic (i : Instr) : assembleLine (mnemonic i) = some [i] := by
  cases i <;> decide

/-- The text of a stream assembles to the stream. -/
theorem assemble_render (is : List Instr) : assemble (render is) = some is := by
  induction is with
  | nil => rfl
  | cons i rest ih =>
    rw [assemble] at ih
    rw [assemble, render, lines_append_newline (newline_not_mem_mnemonic i), assembleLines, assembleLine_mnemonic, ih]
    rfl

/-- Issuing commands keeps the host's duties: no command has the reserved code. -/
theorem dutiful_issues (is : List Instr) : dutiful (issues is) = true := by
  have wellFormed_encode (i : Instr) : codeWellFormed (encode i) = true := by cases i <;> rfl
  rw [dutiful, issues, List.all_map, List.all_eq_true]
  exact fun i _ => wellFormed_encode i

/-- Settles O44: each line assembles to its command, and a dutiful stream has a final block. -/
theorem renderedTextAssemblesToItsStream : Obligations.RenderedTextAssemblesToItsStream := by
  refine fun is => ⟨assemble_render is, fun S => ?_⟩
  obtain ⟨T, final, -⟩ := finalBlock_x_of_dutiful (dutiful_issues is) (S := S) (Nat.mod_eq_of_lt S.x.isLt).symm
  exact ⟨T, final⟩

theorem plainChar_of_isDigit {ch : Char} (digit : ch.isDigit = true) : plainChar ch := by
  refine ⟨Char.toUpper_eq_of_not_isLower fun small => ?_, ?_⟩
  · have le_nine : ch.toNat ≤ 57 := (Char.isDigit_iff_toNat.1 digit).2
    have ge_a : 97 ≤ ch.toNat := of_decide_eq_true (Bool.and_eq_true_iff.1 small).1
    omega
  · rintro rfl
    exact absurd digit (by decide)

theorem isBlank_of_isDigit {ch : Char} (digit : ch.isDigit = true) : isBlank ch = false := by
  rw [← Bool.not_eq_true, isBlank_iff]
  rintro (rfl | rfl | rfl) <;> exact absurd digit (by decide)

theorem digitValue_of_isDigit {ch : Char} (digit : ch.isDigit = true) : digitValue ch = some (ch.toNat - 48) := by
  have range : '0' ≤ ch ∧ ch ≤ '9' := by simpa [Char.isDigit, Char.le_def] using digit
  exact if_pos range

/-- Reading on through digits adds them below the value so far. -/
theorem decimalFrom_digits {digits : List Char} (all_digits : ∀ ch ∈ digits, ch.isDigit = true) (n : Nat) :
    decimalFrom n digits = some (digits.foldl (fun n ch => 10 * n + (ch.toNat - 48)) n) := by
  induction digits generalizing n with
  | nil => rfl
  | cons ch digits ih =>
    obtain ⟨digit, all_digits⟩ := List.forall_mem_cons.1 all_digits
    rw [decimalFrom, digitValue_of_isDigit digit, List.foldl_cons]
    exact ih all_digits _

/-- A row of digits is read as the number it writes. -/
theorem decimal_digits {digits : List Char} (nonempty : digits ≠ []) (all_digits : ∀ ch ∈ digits, ch.isDigit = true) :
    decimal digits = some (digitsValue digits) := by
  rw [decimal, List.isEmpty_eq_false_iff.2 nonempty, if_neg Bool.false_ne_true]
  exact decimalFrom_digits all_digits 0

/-- The words of a line `STEPS n`. -/
theorem wordsFrom_steps {digits : List Char} (nonempty : digits ≠ [])
    (all_digits : ∀ ch ∈ digits, ch.isDigit = true) :
    wordsFrom [] (stepsName ++ ' ' :: digits) = [stepsName, digits] := by
  rw [wordsFrom_word_space (by decide) (by simp [stepsName, isBlank]),
    wordsFrom_word nonempty fun ch mem => isBlank_of_isDigit (all_digits ch mem)]

/-- The line `STEPS n` holds no small letter and no comment. -/
theorem plain_steps {digits : List Char} (all_digits : ∀ ch ∈ digits, ch.isDigit = true) :
    ∀ ch ∈ stepsName ++ ' ' :: digits, plainChar ch := by
  have plain_name : ∀ ch ∈ stepsName, plainChar ch := by simp [stepsName, plainChar]
  exact List.forall_mem_append.2 ⟨plain_name, List.forall_mem_cons.2
    ⟨by decide, fun ch mem => plainChar_of_isDigit (all_digits ch mem)⟩⟩

/-- Issued STEPs end in the block after as many STEPs. -/
theorem finalBlock_issues_steps (n : Nat) (S : Block) :
    finalBlock (issues (List.replicate n .step)) S = some (stepTimes Config.hardware n S) := by
  induction n generalizing S with
  | zero => rfl
  | succ n ih =>
    have goes_on (rest : List HostEvent) : perform (.command (encode .step)) (State.awaiting S rest) =
        .next (State.awaiting (stepBlock Config.hardware S) rest) := rfl
    rw [List.replicate_succ, issues, List.map_cons, finalBlock_cons_of_next (goes_on _)]
    exact ih _

/-- Settles O46: the line's two words are `STEPS` and the numeral, and each issued STEP runs as one. -/
theorem stepsExpandsToThatManyStepCommands : Obligations.StepsExpandsToThatManyStepCommands := by
  refine ⟨fun digits nonempty all_digits => ?_, finalBlock_issues_steps⟩
  rw [assembleLine_of_plain (plain_steps all_digits), wordsFrom_steps nonempty all_digits, assembleWords, if_pos rfl,
    decimal_digits nonempty all_digits]
  rfl

end Sys2Proof.Machine
end

section
/-! SUPPORT. DRAW and its inverse (40_entropy.md R43, R46), register by register. -/

namespace Sys2Proof.Machine

/-- Settles O8: DRAW commutes with reading the registers as numbers. -/
theorem drawFollowsItsRecurrence : Obligations.DrawFollowsItsRecurrence := draw_tuple

theorem undraw_x (S : Block) : (undraw S).x = S.x - 1 := rfl

theorem undraw_a (S : Block) : (undraw S).a = S.a ^^^ (undraw S).c ^^^ S.x := rfl

theorem undraw_b (S : Block) : (undraw S).b = S.b - S.a := rfl

theorem undraw_c (S : Block) : (undraw S).c = (S.c ^^^ S.a) - (S.b >>> 1) := rfl

theorem xor_xor_same (u v : Byte) : u ^^^ v ^^^ v = u := by
  rw [BitVec.xor_assoc, BitVec.xor_self, BitVec.xor_zero]

/-- What `draw` does to `a` and `undraw` undoes, and the other way round: the same two XORs, once more. -/
theorem xor_xor_xor_xor_same (u v w : Byte) : u ^^^ v ^^^ w ^^^ v ^^^ w = u := by
  rw [BitVec.xor_assoc _ w v, BitVec.xor_comm w v, ← BitVec.xor_assoc, xor_xor_same, xor_xor_same]

theorem Block.setGenerator_eq_self {S : Block} {x a b c : Byte} (hx : x = S.x) (ha : a = S.a) (hb : b = S.b)
    (hc : c = S.c) : S.setGenerator x a b c = S := by
  rw [hx, ha, hb, hc]; rfl

/-- R46 item 2: the registers before a draw are recovered in the order `x`, `b`, `c`, `a`. -/
theorem undraw_draw (S : Block) : undraw (draw S) = S := by
  have hx : (undraw (draw S)).x = S.x := by rw [undraw_x, draw_x, BitVec.add_sub_cancel]
  have hb : (undraw (draw S)).b = S.b := by rw [undraw_b, draw_b, BitVec.add_sub_cancel]
  have hc : (undraw (draw S)).c = S.c := by rw [undraw_c, draw_c, xor_xor_same, BitVec.add_sub_cancel]
  have ha : (undraw (draw S)).a = S.a := by rw [undraw_a, hc, draw_a, xor_xor_xor_xor_same]
  exact Block.setGenerator_eq_self hx ha hb hc

/-- R46 item 2: the registers come back in the order in which a draw writes them, `x`, `a`, `b`, `c`. -/
theorem draw_undraw (S : Block) : draw (undraw S) = S := by
  have hx : (draw (undraw S)).x = S.x := by rw [draw_x, undraw_x, BitVec.sub_add_cancel]
  have ha : (draw (undraw S)).a = S.a := by rw [draw_a, hx, undraw_a, xor_xor_xor_xor_same]
  have hb : (draw (undraw S)).b = S.b := by rw [draw_b, ha, undraw_b, BitVec.sub_add_cancel]
  have hc : (draw (undraw S)).c = S.c := by rw [draw_c, ha, hb, undraw_c, BitVec.sub_add_cancel, xor_xor_same]
  exact Block.setGenerator_eq_self hx ha hb hc

/-- R46 item 4: the zero generator is drawn from `(255, 0, 0, 0)`. -/
theorem draw_generator_zero {S : Block} (hx : S.x = 255) (ha : S.a = 0) (hb : S.b = 0) (hc : S.c = 0) :
    (draw S).x = 0 ∧ (draw S).a = 0 ∧ (draw S).b = 0 ∧ (draw S).c = 0 := by
  simp [draw_x, draw_a, draw_b, draw_c, hx, ha, hb, hc]

theorem undraw_generator_zero {S : Block} (hx : S.x = 0) (ha : S.a = 0) (hb : S.b = 0) (hc : S.c = 0) :
    (undraw S).x = 255 ∧ (undraw S).a = 0 ∧ (undraw S).b = 0 ∧ (undraw S).c = 0 := by
  simp [undraw_x, undraw_a, undraw_b, undraw_c, hx, ha, hb, hc]

/-- Settles O9: `undraw` inverts `draw` on both sides, so what `undraw` makes of the zero generator is the one generator
that draws to it. -/
theorem drawIsABijection : Obligations.DrawIsABijection := by
  refine ⟨fun S => ⟨undraw_draw S, draw_undraw S⟩, fun S => ⟨fun ⟨hx, ha, hb, hc⟩ => ?_, fun ⟨hx, ha, hb, hc⟩ => ?_⟩⟩
  · have before : (undraw (draw S)).x = 255 ∧ (undraw (draw S)).a = 0 ∧ (undraw (draw S)).b = 0 ∧
        (undraw (draw S)).c = 0 := undraw_generator_zero hx ha hb hc
    rwa [undraw_draw] at before
  · exact draw_generator_zero hx ha hb hc

end Sys2Proof.Machine
end

section
/-! SUPPORT. The Wind Model (41_wind.md): what a gust and the relaxation after it leave in `wind`, in one WIND_UPDATE,
in one STEP and in a run of STEPs without a gust. -/

namespace Sys2Proof.Machine

/-- Settles O11: WIND_UPDATE commutes with reading the registers as numbers. -/
theorem windUpdateFollowsItsRule : Obligations.WindUpdateFollowsItsRule := windUpdate_tuple

/-- Settles O12: the generator moves by the draws that are counted, and the two conditions decide the count. -/
theorem windUpdateDrawsFollowTheTable : Obligations.WindUpdateDrawsFollowTheTable := by
  intro p S
  have moved {n : Nat} (count : windDrawCount p S = n) :
      windDrawCount p S = n ∧ sameGenerator (windUpdate p S) (drawTimes n S) :=
    ⟨count, count ▸ windUpdate_sameGenerator p S⟩
  refine ⟨fun h1 => moved ?_, fun h1 h2 => moved ?_, fun h1 h2 => moved ?_⟩
  · exact (windDrawCount_eq_one_iff p S).2 (BitVec.not_lt.2 h1)
  · have eligible : gustEligible p (draw S).c := h1
    have stopped : ¬ passesGustGate (draw (draw S)).c := BitVec.not_lt.2 h2
    rw [windDrawCount, if_pos eligible, if_neg stopped]
  · have eligible : gustEligible p (draw S).c := h1
    have passed : passesGustGate (draw (draw S)).c := h2
    rw [windDrawCount, if_pos eligible, if_pos passed]

/-- A gust replaces `wind` outright (41_wind.md R50), and nothing else before the relaxation writes it. -/
theorem drawGust_wind (p : Config) (S : Block) :
    (drawGust p S).wind = if gusts p S then gustValue S else S.wind := by
  obtain ⟨not_eligible, -, e⟩ | ⟨-, not_passed, -, e⟩ | ⟨eligible, passed, -, e⟩ := drawGust_cases p S
  · have no_gust : ¬ gusts p S := fun h => not_eligible h.1
    rw [e, if_neg no_gust]; rfl
  · have no_gust : ¬ gusts p S := fun h => not_passed h.2
    rw [e, if_neg no_gust]; rfl
  · have gust : gusts p S := ⟨eligible, passed⟩
    rw [e, if_pos gust]; rfl

/-- The relaxation is a difference of natural numbers: its guard keeps it from wrapping. -/
theorem windUpdate_wind_toNat (p : Config) (S : Block) :
    (windUpdate p S).wind.toNat =
      if (drawGust p S).wind.toNat > p.base.toNat then (drawGust p S).wind.toNat - 1
      else (drawGust p S).wind.toNat :=
  (congrArg Tuple.wind (relax_tuple p (drawGust p S))).trans (apply_ite Tuple.wind _ _ _)

theorem windUpdate_wind_toNat_of_gusts {p : Config} {S : Block} (h : gusts p S) :
    (windUpdate p S).wind.toNat =
      if (gustValue S).toNat > p.base.toNat then (gustValue S).toNat - 1 else (gustValue S).toNat := by
  rw [windUpdate_wind_toNat, drawGust_wind, if_pos h]

theorem windUpdate_wind_toNat_of_not_gusts {p : Config} {S : Block} (h : ¬ gusts p S) :
    (windUpdate p S).wind.toNat = if S.wind.toNat > p.base.toNat then S.wind.toNat - 1 else S.wind.toNat := by
  rw [windUpdate_wind_toNat, drawGust_wind, if_neg h]

/-- Settles O15: the relaxation takes 255 to 254 unless `BASE` is 255, and never goes below `BASE`. -/
theorem windRangeAfterWindUpdate : Obligations.WindRangeAfterWindUpdate := by
  refine fun p S => ⟨fun base_lt => ?_, fun base_eq => ?_, fun above no_gust => ?_, fun ends_below => ?_, rfl⟩
  · rw [windUpdate_wind]
    split <;> bv_omega
  · have not_above : ¬ (drawGust p S).wind > p.base := by bv_omega
    rw [windUpdate_wind, if_neg not_above, drawGust_wind]
  · have relaxed := windUpdate_wind_toNat_of_not_gusts no_gust
    rw [if_pos (BitVec.lt_def.1 above)] at relaxed
    bv_omega
  · have gust_below : (drawGust p S).wind < p.base := by
      rw [windUpdate_wind] at ends_below
      split at ends_below <;> bv_omega
    rw [drawGust_wind] at gust_below
    split at gust_below
    · next gust => exact .inr ⟨gust, gust_below⟩
    · exact .inl gust_below

/-- FLAME_UPDATE and FILTER_UPDATE leave `wind` alone, so a STEP ends with the one WIND_UPDATE left. -/
theorem stepBlock_wind (p : Config) (S : Block) : (stepBlock p S).wind = (windUpdate p S).wind := by
  simp [stepBlock]

theorem stepBlock_wind_toNat_of_not_gusts {p : Config} {S : Block} (h : ¬ gusts p S) :
    (stepBlock p S).wind.toNat = if S.wind.toNat > p.base.toNat then S.wind.toNat - 1 else S.wind.toNat := by
  rw [stepBlock_wind, windUpdate_wind_toNat_of_not_gusts h]

/-- Linear decay (41_wind.md R51): STEPs without a gust take `wind` down by 1 each, as far as `BASE`. -/
theorem stepTimes_wind_toNat_of_not_gusts {p : Config} {n : Nat} {S : Block}
    (no_gust : ∀ k, k < n → ¬ gusts p (stepTimes p k S)) :
    (stepTimes p n S).wind.toNat =
      if S.wind.toNat > p.base.toNat then max p.base.toNat (S.wind.toNat - n) else S.wind.toNat := by
  induction n generalizing S with
  | zero =>
    rw [stepTimes, Nat.sub_zero]
    split <;> omega
  | succ n ih =>
    have no_later_gust : ∀ k, k < n → ¬ gusts p (stepTimes p k (stepBlock p S)) :=
      fun k hk => no_gust (k + 1) (Nat.succ_lt_succ hk)
    have no_first_gust : ¬ gusts p S := no_gust 0 n.succ_pos
    rw [stepTimes, ih no_later_gust, stepBlock_wind_toNat_of_not_gusts no_first_gust]
    by_cases above : S.wind.toNat > p.base.toNat
    · rw [if_pos above, if_pos above]
      split <;> omega
    · rw [if_neg above, if_neg above, if_neg above]

/-- Settles O13: the two outcomes of `drawGust`, each relaxed; and a run that starts below `BASE` has nothing to
relax. -/
theorem gustReplacesWindAndRelaxationOnlyLowersIt : Obligations.GustReplacesWindAndRelaxationOnlyLowersIt := by
  refine fun p S => ⟨windUpdate_wind_toNat_of_gusts, fun no_gust => ?_, fun no_gust at_most => ?_,
    fun n no_gust below => ?_⟩
  · rw [BitVec.le_def, windUpdate_wind_toNat_of_not_gusts no_gust]
    split <;> omega
  · apply BitVec.eq_of_toNat_eq
    rw [windUpdate_wind_toNat_of_not_gusts no_gust, if_neg (Nat.not_lt.2 at_most)]
  · apply BitVec.eq_of_toNat_eq
    rw [stepTimes_wind_toNat_of_not_gusts no_gust, if_neg (Nat.lt_asymm below)]

/-- A gust at `v > BASE` leaves `v - 1` in its own STEP (41_wind.md R48), so `v - BASE` STEPs in all take it down. -/
theorem stepTimes_wind_eq_base_of_gusts {p : Config} {S : Block} (gust : gusts p S) (above : gustValue S > p.base)
    (no_later_gust : ∀ k, 0 < k → k < (gustValue S).toNat - p.base.toNat → ¬ gusts p (stepTimes p k S)) :
    (stepTimes p ((gustValue S).toNat - p.base.toNat) S).wind = p.base := by
  have own_step : (stepBlock p S).wind.toNat = (gustValue S).toNat - 1 := by
    rw [stepBlock_wind, windUpdate_wind_toNat_of_gusts gust, if_pos (BitVec.lt_def.1 above)]
  obtain ⟨m, hm⟩ : ∃ m, (gustValue S).toNat = p.base.toNat + m + 1 := Nat.exists_eq_add_of_lt above
  have steps : (gustValue S).toNat - p.base.toNat = m + 1 := by omega
  rw [steps] at no_later_gust ⊢
  have quiet : ∀ k, k < m → ¬ gusts p (stepTimes p k (stepBlock p S)) :=
    fun k hk => no_later_gust (k + 1) k.succ_pos (Nat.succ_lt_succ hk)
  apply BitVec.eq_of_toNat_eq
  rw [stepTimes, stepTimes_wind_toNat_of_not_gusts quiet, own_step]
  split <;> omega

/-- Settles O14: the decay is linear from whatever `wind` a run starts with, so from the one a gust's STEP leaves
too. -/
theorem windDecaysLinearlyToTheBaseline : Obligations.WindDecaysLinearlyToTheBaseline := fun _ _ =>
  ⟨stepBlock_wind_toNat_of_not_gusts, fun _ => stepTimes_wind_toNat_of_not_gusts, stepTimes_wind_eq_base_of_gusts⟩

end Sys2Proof.Machine
end

section
/-! SUPPORT. The Flame Model (42_flame.md): what a collapse leaves in `flame` and what growth leaves, in one FLAME_UPDATE,
in one STEP and in a run of STEPs without a collapse; and the threshold that decides between the two. -/

namespace Sys2Proof.Machine

/-- Settles O16: FLAME_UPDATE commutes with reading the registers as numbers. -/
theorem flameUpdateFollowsItsRule : Obligations.FlameUpdateFollowsItsRule := flameUpdate_tuple

/-- A collapse adds the second draw to the one every FLAME_UPDATE makes (42_flame.md R55). -/
theorem flameDrawCount_eq_ite (p : Config) (S : Block) : flameDrawCount p S = if collapses p S then 2 else 1 :=
  if_congr (knocksDown_draw_iff_collapses p S) rfl rfl

/-- Settles O18: the generator moves by the draws that are counted, and the collapse decides the count. -/
theorem flameUpdateDrawsFollowTheTable : Obligations.FlameUpdateDrawsFollowTheTable := by
  intro p S
  have moved := flameUpdate_sameGenerator p S
  rw [flameDrawCount_eq_ite] at moved ⊢
  refine ⟨fun no_collapse => ?_, fun collapsed => ?_⟩
  · rw [if_neg no_collapse] at moved ⊢
    exact ⟨rfl, moved⟩
  · rw [if_pos collapsed] at moved ⊢
    exact ⟨rfl, moved⟩

/-- A collapse replaces the grown `flame` by its draw (42_flame.md R53). -/
theorem flameUpdate_flame_of_collapses {p : Config} {S : Block} (h : collapses p S) :
    (flameUpdate p S).flame = collapseValue S := by
  rw [← knocksDown_draw_iff_collapses] at h
  obtain ⟨h', -, -⟩ | ⟨-, -, e⟩ := flameUpdate_cases p S
  · exact absurd h h'
  · rw [e]; rfl

/-- FILTER_UPDATE leaves `flame` alone, so a STEP ends with the one FLAME_UPDATE left, from the block that WIND_UPDATE of
the same STEP left. -/
theorem stepBlock_flame (p : Config) (S : Block) : (stepBlock p S).flame = (flameUpdate p (windUpdate p S)).flame :=
  filterUpdate_flame p _

theorem stepBlock_flame_toNat_of_not_collapses {p : Config} {S : Block} (h : ¬ collapses p (windUpdate p S)) :
    (stepBlock p S).flame.toNat = min 255 (S.flame.toNat + 1) := by
  rw [stepBlock_flame, flameUpdate_flame_of_not_collapses h, windUpdate_flame]

/-- Settles O17: the STEP's FLAME_UPDATE starts from the block that its WIND_UPDATE left. -/
theorem collapseReadsTheWindOfTheSameStep : Obligations.CollapseReadsTheWindOfTheSameStep := by
  refine ⟨fun p S => ⟨fun collapsed => ?_, fun no_collapse => ?_⟩, draw_wind⟩
  · rw [stepBlock_flame, flameUpdate_flame_of_collapses collapsed]
  · rw [stepBlock_flame_toNat_of_not_collapses no_collapse]
    split <;> omega

/-- At the reference shift the threshold is a quarter of `wind`. -/
theorem collapseThreshold_hardware_toNat (wind : Byte) :
    (collapseThreshold Config.hardware wind).toNat = wind.toNat / 4 := collapseThreshold_toNat Config.hardware wind

theorem collapseThreshold_mono (p : Config) {v w : Byte} (h : v ≤ w) :
    collapseThreshold p v ≤ collapseThreshold p w := by
  rw [BitVec.le_def, collapseThreshold_toNat, collapseThreshold_toNat]
  exact Nat.div_le_div_right h

/-- At the baseline of this hardware the draws 0 to 6 collapse (42_flame.md R56). -/
theorem collapses_hardware_iff_of_wind_eq_baseline {S : Block} (h : S.wind = 30) :
    collapses Config.hardware S ↔ (drawTimes 1 S).c ≤ 6 := by
  have threshold : S.wind.toNat / 2 ^ Config.hardware.calm = 7 := by rw [h]; rfl
  rw [collapses, threshold, BitVec.le_def]
  exact Nat.lt_succ_iff

/-- Settles O19: a shift is a quotient by a power of 2, by 4 on this hardware, where `wind` is at most 254 after
WIND_UPDATE because `BASE` is below 255. -/
theorem collapseThresholdIsTheShiftedWind : Obligations.CollapseThresholdIsTheShiftedWind := by
  refine ⟨collapseThreshold_toNat, fun p wind h => BitVec.ushiftRight_eq_zero h, fun p v w => collapseThreshold_mono p,
    fun wind => ?zero, fun wind => ?largest, fun wind => ?bound, fun S => ?wind, rfl, rfl,
    fun S => collapses_hardware_iff_of_wind_eq_baseline⟩
  case wind => exact (windRangeAfterWindUpdate Config.hardware S).1 (by decide)
  all_goals
    have quarter := collapseThreshold_hardware_toNat wind
    bv_omega

/-- A run without a collapse takes `flame` up by 1 a STEP, as far as 255 (42_flame.md R57). -/
theorem stepTimes_flame_toNat_of_not_collapses {p : Config} {n : Nat} {S : Block}
    (no_collapse : ∀ k, k < n → ¬ collapses p (windUpdate p (stepTimes p k S))) :
    (stepTimes p n S).flame.toNat = min 255 (S.flame.toNat + n) := by
  induction n generalizing S with
  | zero => exact (min_eq_right (Nat.le_of_lt_succ S.flame.isLt)).symm
  | succ n ih =>
    have no_later_collapse : ∀ k, k < n → ¬ collapses p (windUpdate p (stepTimes p k (stepBlock p S))) :=
      fun k hk => no_collapse (k + 1) (Nat.succ_lt_succ hk)
    have no_first_collapse : ¬ collapses p (windUpdate p S) := no_collapse 0 n.succ_pos
    rw [stepTimes, ih no_later_collapse, stepBlock_flame_toNat_of_not_collapses no_first_collapse]
    omega

/-- A quarter of a `wind` of at most 3 is 0, and no draw is below 0. -/
theorem not_collapses_hardware_of_wind_le_three {S : Block} (h : S.wind ≤ 3) : ¬ collapses Config.hardware S := by
  have threshold : S.wind.toNat / 2 ^ Config.hardware.calm = 0 := Nat.div_eq_of_lt (Nat.lt_succ_of_le h)
  rw [collapses, threshold]
  exact Nat.not_lt_zero _

/-- In a run without a gust from a `wind` below `BASE`, every WIND_UPDATE leaves that `wind` (41_wind.md R50). -/
theorem windUpdate_stepTimes_wind_of_not_gusts {p : Config} {n : Nat} {S : Block} (below : S.wind < p.base)
    (no_gust : ∀ k, k < n → ¬ gusts p (stepTimes p k S)) {k : Nat} (hk : k < n) :
    (windUpdate p (stepTimes p k S)).wind = S.wind := by
  obtain ⟨-, -, -, run_keeps⟩ := gustReplacesWindAndRelaxationOnlyLowersIt p S
  obtain ⟨-, -, update_keeps, -⟩ := gustReplacesWindAndRelaxationOnlyLowersIt p (stepTimes p k S)
  have same : (stepTimes p k S).wind = S.wind := run_keeps k (fun j hj => no_gust j (hj.trans hk)) below
  rw [update_keeps (no_gust k hk) (same ▸ BitVec.le_of_lt below), same]

/-- The only `flame` below 1 that FLAME_UPDATE leaves is a collapse's draw of 0 (42_flame.md R57). -/
theorem flameUpdate_flame_ge_one_or_collapseValue_eq_zero (p : Config) (S : Block) :
    (flameUpdate p S).flame ≥ 1 ∨ (collapses p S ∧ collapseValue S = 0) := by
  obtain ge_one | ⟨collapsed, flame_drawn, -⟩ := flameUpdate_flame_cases p S
  · exact .inl ge_one
  · by_cases drew_zero : collapseValue S = 0
    · exact .inr ⟨collapsed, drew_zero⟩
    · left
      rw [flame_drawn]
      bv_omega

/-- Where no collapse can read more than 3, gusts to such a `wind` included, none happens (42_flame.md R57). -/
theorem stepTimes_hardware_flame_toNat_of_wind_le_three {n : Nat} {S : Block}
    (low : ∀ k, k < n → (windUpdate Config.hardware (stepTimes Config.hardware k S)).wind ≤ 3) :
    (stepTimes Config.hardware n S).flame.toNat = min 255 (S.flame.toNat + n) :=
  stepTimes_flame_toNat_of_not_collapses fun k hk => not_collapses_hardware_of_wind_le_three (low k hk)

/-- Settles O20: a run whose collapses would read a `wind` of at most 3 has none, and a run without a gust from such a
`wind`, which is below `BASE`, is one. -/
theorem flameGrowsUntilKnockedDown : Obligations.FlameGrowsUntilKnockedDown := by
  refine ⟨flameUpdate_flame_ge_one_or_collapseValue_eq_zero, fun _ _ => flameUpdate_flame_of_not_collapses,
    fun _ _ _ => stepTimes_flame_toNat_of_not_collapses, fun _ => not_collapses_hardware_of_wind_le_three,
    fun _ _ => stepTimes_hardware_flame_toNat_of_wind_le_three, fun S n low no_gust => ?_⟩
  have below : S.wind < Config.hardware.base := Nat.lt_of_le_of_lt low (by decide : 3 < 30)
  refine stepTimes_hardware_flame_toNat_of_wind_le_three fun k hk => ?_
  rw [windUpdate_stepTimes_wind_of_not_gusts below no_gust hk]
  exact low

end Sys2Proof.Machine
end

section
/-! SUPPORT. The Inertia Filter (43_filter.md): the output after one FILTER_UPDATE as a natural number, which under the
guards never wraps; what it does at equality; and the range of the outputs of a run of STEPs. -/

namespace Sys2Proof.Machine

/-- Settles O21: FILTER_UPDATE commutes with reading the registers as numbers. -/
theorem filterUpdateFollowsItsRule : Obligations.FilterUpdateFollowsItsRule := filterUpdate_tuple

/-- The three moves of the output (43_filter.md R60), with the bound that each guard puts on where it ends (R61). -/
theorem filterUpdate_flameprime_toNat_cases (p : Config) (S : Block) :
    (filterUpdate p S).flameprime.toNat = S.flameprime.toNat ∨
    (S.flame > S.flameprime ∧ (filterUpdate p S).flameprime.toNat < 255 ∧
      (filterUpdate p S).flameprime.toNat = S.flameprime.toNat + p.agility.toNat) ∨
    (S.flame ≤ S.flameprime ∧ 0 < (filterUpdate p S).flameprime.toNat ∧
      (filterUpdate p S).flameprime.toNat + p.agility.toNat = S.flameprime.toNat) := by
  obtain ⟨above, below_limit, e⟩ | ⟨-, -, e⟩ | ⟨not_above, above_floor, e⟩ | ⟨-, -, e⟩ := filterUpdate_cases p S <;>
    rw [e]
  · right; left
    rw [Block.setFlameprime_flameprime]
    bv_omega
  · exact .inl rfl
  · right; right
    rw [Block.setFlameprime_flameprime]
    bv_omega
  · exact .inl rfl

theorem filterUpdate_flameprime_of_rises {p : Config} {S : Block} (above : S.flame > S.flameprime)
    (below_limit : S.flameprime.toNat < 255 - p.agility.toNat) :
    (filterUpdate p S).flameprime = S.flameprime + p.agility :=
  congrArg Block.flameprime ((if_pos above).trans (if_pos below_limit))

theorem filterUpdate_flameprime_of_falls {p : Config} {S : Block} (not_above : ¬ S.flame > S.flameprime)
    (above_floor : S.flameprime > p.agility) : (filterUpdate p S).flameprime = S.flameprime - p.agility :=
  congrArg Block.flameprime ((if_neg not_above).trans (if_pos above_floor))

theorem filterUpdate_flameprime_of_floor {p : Config} {S : Block} (not_above : ¬ S.flame > S.flameprime)
    (at_floor : ¬ S.flameprime > p.agility) : (filterUpdate p S).flameprime = S.flameprime :=
  congrArg Block.flameprime ((if_neg not_above).trans (if_neg at_floor))

/-- The alternation (43_filter.md R59): the step down from an equality leaves the output below `flame` and under the
ceiling guard, so the next FILTER_UPDATE takes it up again by as much. -/
theorem filterUpdate_flameprime_alternates {p : Config} {S : Block} {v : Byte} (equal : S.flame = S.flameprime)
    (above_floor : S.flameprime > p.agility) (agile : p.agility > 0) (below_ceiling : S.flame < 255)
    (not_lower : v ≥ S.flame) : (filterUpdate p ((filterUpdate p S).setFlame v)).flameprime = S.flameprime := by
  have stepped_down : ((filterUpdate p S).setFlame v).flameprime = S.flameprime - p.agility :=
    filterUpdate_flameprime_of_falls (equal ▸ BitVec.lt_irrefl _) above_floor
  have above : v > S.flameprime - p.agility := by bv_omega
  have below_limit : (S.flameprime - p.agility).toNat < 255 - p.agility.toNat := by bv_omega
  rw [← stepped_down] at above below_limit
  rw [filterUpdate_flameprime_of_rises above below_limit, stepped_down, BitVec.sub_add_cancel]

/-- Settles O22: at equality the else branch is taken; the prefix is read off the first eight STEPs. -/
theorem filterStepsDownAtEquality : Obligations.FilterStepsDownAtEquality := by
  refine ⟨by decide, by decide, by decide, fun p S equal => ?_⟩
  have not_above : ¬ S.flame > S.flameprime := equal ▸ BitVec.lt_irrefl _
  refine ⟨fun above_floor => ?_, fun at_floor => ?_, fun above_floor agile below_ceiling v not_lower => ?_⟩
  · rw [filterUpdate_flameprime_of_falls not_above above_floor, BitVec.toNat_sub_of_le (BitVec.le_of_lt above_floor)]
  · exact filterUpdate_flameprime_of_floor not_above (BitVec.not_lt.2 at_floor)
  · exact filterUpdate_flameprime_alternates equal above_floor agile below_ceiling not_lower

/-- The updates before FILTER_UPDATE leave the output alone, so a STEP moves it by at most `AGILITY`
(43_filter.md R60). -/
theorem stepBlock_flameprime_rate (p : Config) (S : Block) :
    (stepBlock p S).flameprime.toNat ≤ S.flameprime.toNat + p.agility.toNat ∧
      S.flameprime.toNat ≤ (stepBlock p S).flameprime.toNat + p.agility.toNat := by
  have moves := filterUpdate_flameprime_toNat_cases p (flameUpdate p (windUpdate p S))
  rw [flameUpdate_flameprime, windUpdate_flameprime] at moves
  rw [stepBlock]
  omega

/-- Settles O23: the three moves, each by at most `AGILITY`, which is 2 on this hardware. -/
theorem outputRateIsBounded : Obligations.OutputRateIsBounded := by
  refine ⟨fun p S => ?_, stepBlock_flameprime_rate,
    fun s => ⟨_, rfl, stepBlock_flameprime_rate Config.hardware s.block⟩⟩
  obtain stays | ⟨above, -, up⟩ | ⟨not_above, -, down⟩ := filterUpdate_flameprime_toNat_cases p S
  · exact .inl stays
  · exact .inr (.inl ⟨above, up⟩)
  · exact .inr (.inr ⟨not_above, down⟩)

/-- Every STEP of a run from a reachable block ends in the range of 43_filter.md R61 item 3. -/
theorem stepTimes_output_range {S : Block} (h : S.Reachable) (n : Nat) :
    (stepTimes Config.hardware (n + 1) S).flameprime.toNat % 2 = 0 ∧
      2 ≤ (stepTimes Config.hardware (n + 1) S).flameprime ∧
      (stepTimes Config.hardware (n + 1) S).flameprime ≤ 254 := by
  induction n generalizing S with
  | zero => exact stepBlock_output_range h
  | succ n ih => exact ih (stepBlock_reachable h)

/-- With `AGILITY` 0 a move goes nowhere, and with 255 neither guard can hold (43_filter.md R61 item 4). -/
theorem filterUpdate_eq_self_of_agility {p : Config} (h : p.agility = 0 ∨ p.agility = 255) (S : Block) :
    filterUpdate p S = S := by
  have same : (filterUpdate p S).flameprime = S.flameprime := by
    have moves := filterUpdate_flameprime_toNat_cases p S
    bv_omega
  rw [filterUpdate_eq_setFlameprime, same]; rfl

/-- Settles O24: the bounds of a rise and of a fall, and a run of STEPs from the zero state, which is reachable. -/
theorem outputRangeOfTheFilter : Obligations.OutputRangeOfTheFilter := by
  refine ⟨fun p S rises => ?_, fun p S falls => ?_, by decide, fun n positive => ?_,
    fun p S h => filterUpdate_eq_self_of_agility h S⟩
  · have moves := filterUpdate_flameprime_toNat_cases p S
    bv_omega
  · have moves := filterUpdate_flameprime_toNat_cases p S
    bv_omega
  · obtain ⟨m, rfl⟩ := Nat.exists_eq_add_of_lt positive
    rw [Nat.zero_add]
    exact stepTimes_output_range Block.zero_reachable m

end Sys2Proof.Machine
end

section
/-! SUPPORT. The commands (44_commands.md): INIT and NOP, what STEP does to the block and how many draws it makes, the
plateau of the output, and what a stream leaves once it comes to a reset. -/

namespace Sys2Proof.Machine

@[simp] theorem exec_nop (s : State) : exec .nop s = .next s := rfl

@[simp] theorem exec_step (s : State) : exec .step s = .next (s.setBlock (stepBlock Config.hardware s.block)) := rfl

@[simp] theorem exec_init (s : State) : exec .init s = .next (s.setBlock Block.zero) := rfl

@[simp] theorem State.setBlock_self (s : State) : s.setBlock s.block = s := rfl

/-- Settles O28: INIT clears the block and touches nothing else, so it does nothing to a block that is clear. -/
theorem initPutsTheBlockInTheZeroState : Obligations.InitPutsTheBlockInTheZeroState := by
  refine ⟨fun s => ⟨s.setBlock Block.zero, exec_init s, rfl, rfl, rfl⟩, fun s zero => ?_⟩
  rw [exec_init, ← zero, State.setBlock_self]

/-- Settles O25: each micro-operation commutes with reading the registers as numbers, so STEP on the block does. -/
theorem stepCommandFollowsItsRule : Obligations.StepCommandFollowsItsRule := fun s =>
  ⟨s.setBlock (stepBlock Config.hardware s.block), exec_step s, stepBlock_tuple Config.hardware s.block, rfl, rfl⟩

theorem sameGenerator_trans {S T U : Block} (h : sameGenerator S T) (h' : sameGenerator T U) : sameGenerator S U := by
  obtain ⟨hx, ha, hb, hc⟩ := h
  obtain ⟨hx', ha', hb', hc'⟩ := h'
  exact ⟨hx.trans hx', ha.trans ha', hb.trans hb', hc.trans hc'⟩

/-- DRAW reads nothing but the generator (40_entropy.md R43). -/
theorem draw_sameGenerator {S T : Block} (h : sameGenerator S T) : sameGenerator (draw S) (draw T) := by
  obtain ⟨hx, ha, hb, hc⟩ := h
  simp [sameGenerator, draw_x, draw_a, draw_b, draw_c, hx, ha, hb, hc]

theorem drawTimes_sameGenerator (n : Nat) {S T : Block} (h : sameGenerator S T) :
    sameGenerator (drawTimes n S) (drawTimes n T) := by
  induction n generalizing S T with
  | zero => exact h
  | succ n ih => exact ih (draw_sameGenerator h)

/-- STEP moves the generator by the draws of WIND_UPDATE and then those of FLAME_UPDATE, and by no other
(44_commands.md R63). -/
theorem stepBlock_sameGenerator (p : Config) (S : Block) :
    sameGenerator (stepBlock p S) (drawTimes (stepDrawCount p S) S) := by
  have wind := drawTimes_sameGenerator (flameDrawCount p (windUpdate p S)) (windUpdate_sameGenerator p S)
  have flame := sameGenerator_trans (flameUpdate_sameGenerator p (windUpdate p S)) wind
  rw [stepDrawCount, drawTimes_add]
  exact sameGenerator_trans (filterUpdate_sameGenerator p _) flame

/-- The table of 41_wind.md R49. -/
theorem windDrawCount_eq_ite (p : Config) (S : Block) :
    windDrawCount p S = if (drawTimes 1 S).c < p.var then if (drawTimes 2 S).c > 220 then 3 else 2 else 1 := rfl

theorem windDrawCount_range (p : Config) (S : Block) : 1 ≤ windDrawCount p S ∧ windDrawCount p S ≤ 3 := by
  obtain ⟨-, n, -⟩ | ⟨-, -, n, -⟩ | ⟨-, -, n, -⟩ := drawGust_cases p S <;> omega

theorem flameDrawCount_range (p : Config) (S : Block) : 1 ≤ flameDrawCount p S ∧ flameDrawCount p S ≤ 2 := by
  obtain ⟨-, n, -⟩ | ⟨-, n, -⟩ := flameUpdate_cases p S <;> omega

theorem stepDrawCount_range (p : Config) (S : Block) : 2 ≤ stepDrawCount p S ∧ stepDrawCount p S ≤ 5 := by
  have wind := windDrawCount_range p S
  have flame := flameDrawCount_range p (windUpdate p S)
  rw [stepDrawCount]
  omega

/-- Settles O27: the generator moves by the draws that are counted, and the count is the sum of the two tables. -/
theorem stepMakesTwoToFiveDraws : Obligations.StepMakesTwoToFiveDraws := by
  refine fun s => ⟨s.setBlock (stepBlock Config.hardware s.block), exec_step s,
    stepBlock_sameGenerator Config.hardware s.block, ?_, stepDrawCount_range Config.hardware s.block⟩
  rw [stepDrawCount, windDrawCount_eq_ite, flameDrawCount_eq_ite]; rfl

theorem filterUpdate_flameprime_of_ceiling {p : Config} {S : Block} (above : S.flame > S.flameprime)
    (at_ceiling : ¬ S.flameprime.toNat < 255 - p.agility.toNat) : (filterUpdate p S).flameprime = S.flameprime :=
  congrArg Block.flameprime ((if_pos above).trans (if_neg at_ceiling))

/-- Settles O31: `flame` stays saturated, and an output of 254 is below it but not below `255 - AGILITY`
(90_conflicts.md C6). -/
theorem outputPlateauHoldsUntilACollapse : Obligations.OutputPlateauHoldsUntilACollapse := by
  intro s flame_full output_full no_collapse
  have flame_stays : (stepBlock Config.hardware s.block).flame = 255 := by
    apply BitVec.eq_of_toNat_eq
    rw [stepBlock_flame_toNat_of_not_collapses no_collapse, flame_full]; rfl
  have output_stays : (stepBlock Config.hardware s.block).flameprime = 254 := by
    rw [stepBlock_flame] at flame_stays
    have output_before : (flameUpdate Config.hardware (windUpdate Config.hardware s.block)).flameprime = 254 := by
      rw [flameUpdate_flameprime, windUpdate_flameprime, output_full]
    rw [stepBlock, filterUpdate_flameprime_of_ceiling ?above ?at_ceiling, output_before]
    case above => rw [flame_stays, output_before]; decide
    case at_ceiling => rw [output_before]; decide
  exact ⟨s.setBlock (stepBlock Config.hardware s.block), exec_step s, flame_stays, output_stays⟩

theorem finalBlock_cons_nop (rest : List HostEvent) (S : Block) :
    finalBlock (.command 0b00#2 :: rest) S = finalBlock rest S := finalBlock_cons_of_next (issue_nop _)

/-- A first event acts alike on two streams that leave the same final block from every block. -/
theorem finalBlock_cons_congr {rest rest' : List HostEvent} (same : ∀ S, finalBlock rest S = finalBlock rest' S)
    (e : HostEvent) (S : Block) : finalBlock (e :: rest) S = finalBlock (e :: rest') S := by
  have first_event (rest : List HostEvent) : finalBlock (e :: rest) S = (finalBlock [e] S).bind (finalBlock rest) :=
    finalBlock_append [e] rest S
  rw [first_event rest, first_event rest', funext same]

/-- Settles O29: by induction on the stream, a NOP at its head leaves the block to the rest as it was. -/
theorem nopChangesNothingAnywhere : Obligations.NopChangesNothingAnywhere := by
  refine ⟨exec_nop, fun events => ?_⟩
  induction events with
  | nil => exact fun S => rfl
  | cons e rest ih =>
    intro S
    by_cases nop : e = .command 0b00#2
    · subst nop
      rw [List.filter_cons_of_neg (by decide), finalBlock_cons_nop, ih]
    · rw [List.filter_cons_of_pos (by simpa [isNop] using nop)]
      exact finalBlock_cons_congr ih e S

/-- Either way to reset forgets the block (70_reset_and_hazards.md R83). -/
theorem perform_of_isReset {e : HostEvent} (reset : isReset e) (S : Block) (rest : List HostEvent) :
    perform e (State.awaiting S rest) = .next (State.awaiting Block.zero rest) := by
  obtain rfl | rfl := reset <;> rfl

/-- A run that comes to a reset through a dutiful stream goes on as from the zero state. -/
theorem run_append_reset {before : List HostEvent} {e : HostEvent} (duty : dutiful before = true) (reset : isReset e)
    (after : List HostEvent) (S : Block) (k : Nat) :
    run (before.length + 1 + k) (State.awaiting S (before ++ e :: after)) =
      run k (State.awaiting Block.zero after) := by
  obtain ⟨T, arrives⟩ := run_append_of_dutiful duty S
  rw [Nat.add_assoc, Nat.add_comm 1 k, arrives,
    run_succ_of_next k ((step_awaiting T e after).trans (perform_of_isReset reset T after))]

/-- The outputs after the first `m` steps are those of the state which these steps lead to. -/
theorem outsAfter_drop_of_run {m : Nat} {s t : State} (arrives : run m s = .next t) (k : Nat) :
    (outsAfter (m + k) s).drop m = outsAfter k t := by
  induction m generalizing s with
  | zero =>
    cases arrives
    rw [Nat.zero_add, List.drop_zero]
  | succ m ih =>
    rw [Nat.succ_add, outsAfter]
    cases first_step : step s with
    | next u =>
      rw [run_succ_of_next m first_step] at arrives
      exact ih arrives
    | fault r =>
      rw [run_succ_of_fault m first_step] at arrives
      cases arrives
    | refused r =>
      rw [run_succ_of_refused m first_step] at arrives
      cases arrives

/-- Settles O37: the run comes to the zero state with the stream after the reset still to do, whatever came before. -/
theorem commandsSinceTheLastResetDecideEverything : Obligations.CommandsSinceTheLastResetDecideEverything := by
  intro before after e S duty reset
  have goes_on := run_append_reset duty reset after S
  refine ⟨?_, outsAfter_drop_of_run (goes_on 0)⟩
  have steps : (before ++ e :: after).length = before.length + 1 + after.length := by
    rw [List.length_append, List.length_cons]
    omega
  rw [finalBlock, steps, goes_on, finalBlock]

end Sys2Proof.Machine
end

section
/-! SUPPORT. The block has no exceptions (60_exceptions.md R70, R81): every command completes in every state, a command cut
off by a loss of power ends the run, and power-on starts from the zero state, whatever the block held. -/

namespace Sys2Proof.Machine

/-- Settles O30: NOP answers the state it is given, and STEP and INIT write the block alone. -/
theorem everyCommandCompletesInEveryState : Obligations.EveryCommandCompletesInEveryState := by
  intro i s
  cases i with
  | nop => exact ⟨s, exec_nop s, rfl⟩
  | step => exact ⟨s.setBlock (stepBlock Config.hardware s.block), exec_step s, rfl⟩
  | init => exact ⟨s.setBlock Block.zero, exec_init s, rfl⟩

/-- A stream that starts with a reset leaves what the rest of it leaves from the zero state. -/
theorem finalBlock_cons_of_isReset {e : HostEvent} (reset : isReset e) (rest : List HostEvent) (S : Block) :
    finalBlock (e :: rest) S = finalBlock rest Block.zero :=
  finalBlock_cons_of_next (perform_of_isReset reset S rest)

/-- Settles O42: a loss of power during a command faults in every state, and power-on is a reset, after which the block it
came upon has no part. -/
theorem powerLossKeepsNoState : Obligations.PowerLossKeepsNoState := by
  refine ⟨fun c before rest S k duty hk => ?_, fun rest S T => ?_⟩
  · exact run_append_cons_of_fault duty (perform_powerLoss c) hk rest S
  · have power_on : isReset .powerOn := .inl rfl
    rw [finalBlock_cons_of_isReset power_on, finalBlock_cons_of_isReset power_on]

end Sys2Proof.Machine
end

section
/-! SUPPORT. Reset and the host's duties (70_reset_and_hazards.md): a dutiful stream runs on for any number of steps and no
other stream runs to its end (R86), both resets come to the zero state (R83), and an idle block stays as it is (R84). -/

namespace Sys2Proof.Machine

/-- A run of a dutiful stream never stops: each step takes one event, and once none is left the steps are idle. -/
theorem run_of_dutiful {events : List HostEvent} (duty : dutiful events = true) (S : Block) (k : Nat) :
    ∃ T, run k (State.awaiting S events) = .next (State.awaiting T (events.drop k)) := by
  induction k generalizing events S with
  | zero => exact ⟨S, rfl⟩
  | succ k ih =>
    cases events with
    | nil =>
      rw [run_succ_of_next k (step_awaiting_nil S)]
      simpa only [List.drop_nil] using ih duty S
    | cons e rest =>
      obtain ⟨duty_e, duty_rest⟩ : e.obeysDuties = true ∧ dutiful rest = true := by simpa [dutiful] using duty
      obtain ⟨T, goes_on⟩ := perform_next_of_obeysDuties duty_e S
      rw [run_succ_of_next k ((step_awaiting S e rest).trans (goes_on rest)), List.drop_succ_cons]
      exact ih duty_rest T

/-- A stream has a final block exactly if it is dutiful: its run then goes on to the end, and otherwise the stream holds an
event that stops the machine. -/
theorem finalBlock_isSome_eq_dutiful (events : List HostEvent) (S : Block) :
    (finalBlock events S).isSome = dutiful events := by
  cases duty : dutiful events with
  | true =>
    obtain ⟨T, arrives⟩ := run_of_dutiful duty S events.length
    rw [finalBlock, arrives, Option.isSome_some]
  | false =>
    obtain ⟨e, mem, breaks⟩ := List.all_eq_false.1 duty
    rw [finalBlock_of_mem_not_obeysDuties (Bool.eq_false_of_not_eq_true breaks) mem, Option.isSome_none]

/-- Settles O39: a run that never stops comes to the end of the stream, and one with an event that stops it does not. -/
theorem dutifulStreamsAndOnlyTheyComplete : Obligations.DutifulStreamsAndOnlyTheyComplete := by
  refine ⟨finalBlock_isSome_eq_dutiful, fun events S k duty => ?_⟩
  obtain ⟨T, goes_on⟩ := run_of_dutiful duty S k
  exact ⟨State.awaiting T (events.drop k), goes_on, rfl⟩

/-- Settles O2: either reset is one step to the zero state, whose output is 0, with the rest of the stream still to do. -/
theorem bothResetsGiveTheSameState : Obligations.BothResetsGiveTheSameState := fun _ rest S reset =>
  ⟨finalBlock_cons_of_isReset reset rest S, outsAfter_awaiting_cons_of_next (perform_of_isReset reset S rest)⟩

/-- Settles O3: a step finds no event to take. -/
theorem idleBlockDoesNothing : Obligations.IdleBlockDoesNothing := step_idle

end Sys2Proof.Machine
end

section
/-! SUPPORT. Codes, commands and the words of the opcode table (30_encoding.md R36 to R40): a code decodes to a command
exactly if it is that command's code, and a table word issued next runs as the command it decodes to. -/

namespace Sys2Proof.Machine

/-- The law of codes, proved command by command, holds of every command. -/
theorem codeOf_statement (i : Instr) : Laws.CodeOf.Statement i := by
  cases i with
  | nop => exact Laws.CodeOf.nop
  | step => exact Laws.CodeOf.step
  | init => exact Laws.CodeOf.init

theorem decode_eq_ok_iff {code : Code} {i : Instr} : decode code = .ok i ↔ code = encode i := by
  obtain ⟨-, -, decode_encode, only_encode⟩ := codeOf_statement i
  exact ⟨only_encode code, fun h => h ▸ decode_encode⟩

/-- Settles O7: the code of a command decodes to it, and no other code does. -/
theorem decodeAndEncodeAgree : Obligations.DecodeAndEncodeAgree := fun _ _ _ => decode_eq_ok_iff

/-- A word of the opcode table is read as a command exactly if the code it puts on `cmd` decodes to that command. -/
theorem decodeTableWord_eq_some_iff {nbits w : Nat} {i : Instr} :
    decodeTableWord nbits w = some i ↔ decode (tableCode nbits w) = .ok i := by
  rw [decodeTableWord]
  cases decode (tableCode nbits w) with
  | ok j => simp
  | error e => simp

/-- The step after a code is put at the head of the stream issues it, and what else the host has to do is as before. -/
theorem step_issueNext (code : Code) (s : State) : step (issueNext code s) = issue code s :=
  step_cons (issueNext code s) (.command code) s.pending rfl

/-- Settles O5: the step issues the code of the word, and a code that decodes runs as its command. -/
theorem issuedWordRunsAsItsCommand : Obligations.IssuedWordRunsAsItsCommand := by
  intro s nbits w i reads
  rw [State.withFetchWord, step_issueNext, issue_of_decode (decodeTableWord_eq_some_iff.1 reads)]

end Sys2Proof.Machine
end
